-- ==== Sys2Proof/Word.lean ====
section
/-! DEFINITION. The word types of the link core: every value of the spec is unsigned (00 R10). -/

namespace Sys2Proof

/-- A byte of a frame, of the wire or of a one-byte register (`u8` of 00 R10). -/
abbrev Byte := BitVec 8

/-- A 16-bit value: a CRC, a two-byte field, the ramp-up step (`u16` of 00 R10). -/
abbrev Half := BitVec 16

/-- A one-bit register, field or event argument. -/
abbrev Bit := BitVec 1

/-- The 24-bit tick counter (`u24` of 00 R10). -/
abbrev Tick := BitVec 24

/-- The 11-bit command word (30 R93): bits 10:8 are `op`, bits 7:0 are `data`. -/
abbrev CmdWord := BitVec 11

end Sys2Proof
end

