-- ==== Sys2Proof/Config.lean ====
section
/-! DEFINITION. What the source leaves to the implementation (00 R8): the parameters that are plain data (`Setup`,
held in State), the parameters that are functions (`Params`), and the machine's own parameters, which have no body. -/

namespace Sys2Proof

/-- `DECODE_VIEW` (00 R8, 42 R151): how a decode may be interleaved with byte arrivals. -/
inductive DecodeView where
  /-- The poll is one atomic step. -/
  | atomic
  /-- The poll is an interval in which RX_BYTE steps may fall (the spec's default). -/
  | preemptible
  deriving DecidableEq, Repr

/-- The parameters of 00 R8 that are plain data. They stand in State so that every statement holds for each value of
them; no operation writes them (log 4). -/
structure Setup where
  /-- `DECODE_VIEW` -/
  decodeView : DecodeView
  /-- `RAMP_DEFAULT`, well formed only in `[RAMP_MIN, RAMP_MAX]` (00 R9) -/
  rampDefault : Byte
  deriving DecidableEq, Repr

/-- The parameters of 00 R8 that are functions, and the bytes an unwritten receive buffer holds (10 R24). The spec's
model takes each as an argument; so do the operations of Machine/. -/
structure Params where
  /-- `CRC16_STEP : u16 × u8 → u16` (40 R112) -/
  crc16Step : Half → Byte → Half
  /-- `CUTOFF_STEP_FN : u16 → u8` (42 R160) -/
  cutoffStep : Half → Byte
  /-- what `rx_buf` holds at an offset that nothing has written since reset (10 R24, U1) -/
  rxBufAtReset : Nat → Byte

/-- `CRC16_STEP` of the machine: the source names no polynomial (D1, U9), so nothing is known of it (log 1). -/
opaque Config.crc16Step : Half → Byte → Half

/-- `CUTOFF_STEP_FN` of the machine: the source gives no formula (D15, U11), so nothing is known of it (log 2). -/
opaque Config.cutoffStep : Half → Byte

/-- The contents of `rx_buf` at reset: any value (D7, U1), one per offset (log 3). -/
opaque Config.rxBufAtReset : Nat → Byte

/-- The machine's own parameters. -/
def Config.params : Params where
  crc16Step := Config.crc16Step
  cutoffStep := Config.cutoffStep
  rxBufAtReset := Config.rxBufAtReset

end Sys2Proof
end

