-- ==== Sys2Proof/Machine/State.lean ====
section
/-! DEFINITION. The state of the link core as plain data (10 R20, 30 R104, 70 R260), the reasons a step can stop, and
the state right after reset. -/

namespace Sys2Proof.Machine

/-! ### Reasons a step can stop -/

/-- The faults of a step. The hardware raises none (60 R230); both are model-level outcomes. -/
inductive Fault where
  /-- `FAULT_UNWRITTEN_CRC`: raised by CRC_UPDATE on an accumulator never initialised since reset. The spec names it as
  the outcome there (40 R111, R113, D8, U2, 60 R237, vector C4); safe. -/
  | unwrittenCrc
  /-- Raised by an RX_BYTE step that would store at an offset of `rx_buf` outside 0 to 8, which no operation reaches
  (20 R60, R61, 10 R23): only a state with `rx_state` COLLECTING and `rx_index` 9 to 15 raises it. Safe (log 13). -/
  | rxOffset
  deriving DecidableEq, Repr

/-- The refusals of a step: the reasons of 30 R104, and the model's own name for an instruction without a meaning. -/
inductive Refusal where
  /-- Raised by an arm of `exec` that has no meaning yet: none is left. Safe. -/
  | notModelled (mnemonic : String)
  /-- `RESERVED_OP`: a command word with op 101, 110 or 111 (30 R97). Safe: the spec gives the step no meaning. -/
  | reservedOp
  /-- `NONZERO_DATA`: op 001, 010 or 011 with non-zero data (30 R98). Safe: the spec gives the step no meaning. -/
  | nonzeroData
  /-- `BAD_CONFIG`: `RAMP_DEFAULT` outside `[RAMP_MIN, RAMP_MAX]` (00 R9, 70 R265). Safe: the spec gives no meaning. -/
  | badConfig
  deriving DecidableEq, Repr

/-! ### Pieces of the state -/

/-- `rx_state` (10 R22): `IDLE = 0`, `COLLECTING = 1`. -/
inductive RxState where
  /-- "waiting for start byte" -/
  | idle
  /-- "accumulating data+CRC bytes" -/
  | collecting
  deriving DecidableEq, Repr

/-- The written bytes of the receive buffer: (offset, byte) cells, offsets strictly rising and below 9. An offset that
is not listed has not been written since reset (10 R24, log 3). -/
abbrev Memory := List Host.Cell

/-- A CRC accumulator (10 R30): its 16 bits, and whether CRC_INIT has run on it since reset (40 R113). -/
structure Accumulator where
  /-- the running value; before initialisation it is never observed (log 6) -/
  value : Half
  /-- has the accumulator been initialised since reset? -/
  initialised : Bool
  deriving DecidableEq, Repr

/-- The configuration register file `cfg[0..21]` (10 R31 to R33), each register at its width under its own name. -/
structure CfgFile where
  /-- `cfg[0]` -/
  assistLevel : Byte
  /-- `cfg[1]` -/
  lightsOn : Bit
  /-- `cfg[2]` -/
  walkAssist : Bit
  /-- `cfg[3]` -/
  batteryMaxPowerDiv25 : Byte
  /-- `cfg[4]` -/
  batteryLowVoltageCutoff : Half
  /-- `cfg[5]` -/
  wheelPerimeter : Half
  /-- `cfg[6]` -/
  wheelMaxSpeed : Byte
  /-- `cfg[7]` -/
  batteryMaxCurrent : Byte
  /-- `cfg[8]` -/
  motorType : Byte
  /-- `cfg[9]` -/
  startupBoostEnabled : Bit
  /-- `cfg[10]` -/
  startupBoostLimitMaxPower : Bit
  /-- `cfg[11]` -/
  startupBoostAssistLevel : Byte
  /-- `cfg[12]` -/
  startupBoostDuration : Byte
  /-- `cfg[13]` -/
  startupBoostFadeTime : Byte
  /-- `cfg[14]`, a whole-byte flag (10 R34) -/
  startupBoostFeatureEnabled : Byte
  /-- `cfg[15]` -/
  motorTempLowerLimit : Byte
  /-- `cfg[16]` -/
  motorTempUpperLimit : Byte
  /-- `cfg[17]` -/
  rampUpRateX10 : Byte
  /-- `cfg[18]` -/
  rampUpStep : Half
  /-- `cfg[19]` -/
  targetCruiseSpeed : Byte
  /-- `cfg[20]`, a whole-byte flag (10 R34) -/
  temperatureLimitEnabled : Byte
  /-- `cfg[21]`, a whole-byte flag (10 R34) -/
  assistWithoutPedalRotation : Byte
  deriving DecidableEq, Repr

/-- The output events (10 R45), one kind per collaborator call of 10 R43. -/
inductive Event where
  /-- `LIGHTS(on)`: `lighting.set_state` -/
  | lights (on : Bit)
  /-- `PERSIST`: `persistence.notify_possible_change` -/
  | persist
  /-- `CUTOFF_STEP(v)`: `motor.set_battery_voltage_cutoff_step` -/
  | cutoffStep (v : Byte)
  /-- `MAX_CURRENT(v)`: `motor.set_battery_max_current` -/
  | maxCurrent (v : Byte)
  /-- `TX(b)`: `transmit_channel.send_byte` -/
  | tx (b : Byte)
  deriving DecidableEq, Repr

/-- The telemetry inputs (43 R191), in frame order, with the width the encoder reads. -/
structure Telemetry where
  /-- 16 bits, of which 9:0 are used -/
  battVoltageAdc : Half
  battCurrentRaw : Half
  wheelSpeed : Half
  brake : Bit
  throttleAdcRaw : Byte
  motorTemperature : Byte
  throttleProcessed : Byte
  torqueAdcRaw : Byte
  torqueProcessed : Byte
  pedalCadence : Byte
  pedalPowerMapped : Byte
  pwmDutyCycle : Byte
  motorErps : Half
  focAngle : Byte
  systemState : Byte
  tempLimitingValue : Byte
  tickCounter : Tick
  pedalTorqueX10 : Half
  pedalPowerX10 : Half
  deriving DecidableEq, Repr

/-- What the environment supplies while an operation runs (log 8): the telemetry values (10 R40), and, for a
PREEMPTIBLE poll, the bytes that arrive inside its interval and the instant each of its fifteen reads sees (42 R151,
log 9). Instant 0 is the opening; instant `k` is the one after the `k`-th arrival. -/
structure Inputs where
  /-- the telemetry values at the start of the step (43 R192) -/
  telemetry : Telemetry
  /-- the bytes of the RX_BYTE steps inside the poll's interval, first arrival first -/
  arrivals : List Byte
  /-- the instant at which the CRC view reads each of bytes 0 to 8 -/
  crcInstants : Vector Nat 9
  /-- the instant at which the field view reads each of bytes 1 to 6 -/
  fieldInstants : Vector Nat 6
  deriving DecidableEq, Repr

/-- One operation offered by the environment (30 R93): its command word, and the inputs that stand while it runs. -/
structure Offer where
  /-- the command word -/
  word : CmdWord
  /-- the inputs during its step -/
  inputs : Inputs
  deriving DecidableEq, Repr

/-- The state of the block (10 R20, 30 R104), the parameters that are plain data (00 R8), and what the environment
supplies (10 R40, 30 R93). -/
structure State where
  /-- `rx_state` (10 R22) -/
  rxState : RxState
  /-- `rx_index` (10 R23) -/
  rxIndex : BitVec 4
  /-- `rx_buf[0..8]` (10 R24) -/
  rxBuf : Memory
  /-- `ready` (10 R25) -/
  ready : Bool
  /-- `rx_enabled` (10 R26) -/
  rxEnabled : Bool
  /-- `crc_rx` (10 R30) -/
  crcRx : Accumulator
  /-- `crc_tx` (10 R30) -/
  crcTx : Accumulator
  /-- `crc_acc` (10 R30) -/
  crcAcc : Accumulator
  /-- `cfg[0..21]` (10 R31) -/
  cfg : CfgFile
  /-- the output event stream, oldest first (10 R45) -/
  output : List Event
  /-- the refusal mark, clear at reset (30 R104, 70 R260) -/
  refusalMark : Option Refusal
  /-- the parameters that are plain data (00 R8, log 4) -/
  setup : Setup
  /-- the inputs of the operation being run (the model's own, log 8) -/
  inputs : Inputs
  /-- the operations the environment offers, next first (the model's own, log 7) -/
  offers : List Offer
  deriving DecidableEq, Repr

/-! ### Reset -/

/-- The parameters' reference values: the default view (00 R8), and `RAMP_DEFAULT = 50` (D13, G4; log 4). -/
def Setup.reference : Setup where
  decodeView := .preemptible
  rampDefault := 50

/-- The contents of `CONFIG_INIT` that the programs of the spec take (D9): zeros, but for the ramp-up rate and the
step that belongs to it (70 R264; log 5). -/
def CfgFile.reference : CfgFile where
  assistLevel := 0
  lightsOn := 0
  walkAssist := 0
  batteryMaxPowerDiv25 := 0
  batteryLowVoltageCutoff := 0
  wheelPerimeter := 0
  wheelMaxSpeed := 0
  batteryMaxCurrent := 0
  motorType := 0
  startupBoostEnabled := 0
  startupBoostLimitMaxPower := 0
  startupBoostAssistLevel := 0
  startupBoostDuration := 0
  startupBoostFadeTime := 0
  startupBoostFeatureEnabled := 0
  motorTempLowerLimit := 0
  motorTempUpperLimit := 0
  rampUpRateX10 := 50
  rampUpStep := 1953
  targetCruiseSpeed := 0
  temperatureLimitEnabled := 0
  assistWithoutPedalRotation := 0

/-- An accumulator that CRC_INIT has not run on since reset (70 R260); its bits are never observed (log 6). -/
def Accumulator.unwritten : Accumulator where
  value := 0
  initialised := false

/-- Telemetry inputs that are all zero. -/
def Telemetry.zero : Telemetry where
  battVoltageAdc := 0
  battCurrentRaw := 0
  wheelSpeed := 0
  brake := 0
  throttleAdcRaw := 0
  motorTemperature := 0
  throttleProcessed := 0
  torqueAdcRaw := 0
  torqueProcessed := 0
  pedalCadence := 0
  pedalPowerMapped := 0
  pwmDutyCycle := 0
  motorErps := 0
  focAngle := 0
  systemState := 0
  tempLimitingValue := 0
  tickCounter := 0
  pedalTorqueX10 := 0
  pedalPowerX10 := 0

/-- Inputs with zero telemetry and no arrival inside a poll (log 8). -/
def Inputs.quiet : Inputs where
  telemetry := Telemetry.zero
  arrivals := []
  crcInstants := #v[0, 0, 0, 0, 0, 0, 0, 0, 0]
  fieldInstants := #v[0, 0, 0, 0, 0, 0]

/-- The state right after reset (70 R260), for parameters `setup` and configuration contents `configInit`. -/
def State.resetWith (setup : Setup) (configInit : CfgFile) : State where
  rxState := .idle
  rxIndex := 0
  rxBuf := []
  ready := false
  rxEnabled := true
  crcRx := .unwritten
  crcTx := .unwritten
  crcAcc := .unwritten
  cfg := configInit
  output := []
  refusalMark := none
  setup := setup
  inputs := .quiet
  offers := []

/-- The state right after reset (70 R260), at the parameters' reference values (log 4, log 5). -/
def State.reset : State :=
  State.resetWith Setup.reference CfgFile.reference

end Sys2Proof.Machine
end

