-- ==== Sys2Proof/Machine/Flags.lean ====
section
/-! DEFINITION. The block has no arithmetic flags (10 R29); its flags are the two handoff bits `ready` and `rx_enabled`
(10 R25, R26), written by the four operations below. -/

namespace Sys2Proof.Machine

/-- `ready <- 1` (41 R134). -/
def State.raiseReady (s : State) : State := { s with ready := true }

/-- `ready <- 0` (42 R155). -/
def State.clearReady (s : State) : State := { s with ready := false }

/-- `rx_enabled <- 1`: `receive_channel.enable()`, the re-arm (10 R44). -/
def State.armReceiver (s : State) : State := { s with rxEnabled := true }

/-- `rx_enabled <- 0`: `receive_channel.disable()` (10 R44). -/
def State.disarmReceiver (s : State) : State := { s with rxEnabled := false }

end Sys2Proof.Machine
end

