-- ==== Sys2Proof/Syntax.lean ====
section
/-! DEFINITION. The instructions of the link core: the five CMD operations (30 R96), the ten rows of the message map
(30 R88) and the transmit frame (30 R82, R103). -/

namespace Sys2Proof

/-- The bytes of a receive frame other than the start marker and the message-ID (30 R81): bytes 2 to 8. The bit-flag
byte is kept whole, since the CRC covers its unassigned bits too (30 R86, 42 R152). -/
structure RxFields where
  /-- byte 2 -/
  assist : Byte
  /-- byte 3: bit 0 lights, bit 1 walk-assist, bits 7:2 not assigned -/
  flags : Byte
  /-- byte 4 -/
  power : Byte
  /-- byte 5 -/
  b5 : Byte
  /-- byte 6 -/
  b6 : Byte
  /-- byte 7: CRC bits 7:0 -/
  crcLo : Byte
  /-- byte 8: CRC bits 15:8 -/
  crcHi : Byte
  deriving DecidableEq, Repr

/-- The telemetry fields of a transmit frame, bytes 1 to 25 (30 R82). The bits R82 fixes at 0 are no field. -/
structure TxPayload where
  /-- byte 1 -/
  vbatLo : Byte
  /-- byte 2, bits 5:4 -/
  vbatHi : BitVec 2
  /-- byte 3 -/
  ibat : Byte
  /-- bytes 4 and 5, low first -/
  wheel : Half
  /-- byte 6, bit 0 -/
  brake : Bit
  /-- byte 7 -/
  thrRaw : Byte
  /-- byte 8 -/
  tempOrThr : Byte
  /-- byte 9 -/
  tqRaw : Byte
  /-- byte 10 -/
  tq : Byte
  /-- byte 11 -/
  cadence : Byte
  /-- byte 12 -/
  ppm : Byte
  /-- byte 13 -/
  duty : Byte
  /-- bytes 14 and 15, low first -/
  erps : Half
  /-- byte 16 -/
  foc : Byte
  /-- byte 17 -/
  state : Byte
  /-- byte 18 -/
  tlim : Byte
  /-- bytes 19 to 21, low to high -/
  tick : Tick
  /-- bytes 22 and 23, low first -/
  ptq : Half
  /-- bytes 24 and 25, low first -/
  ppw : Half
  deriving DecidableEq, Repr

/-- One constructor per mnemonic of the opcode table. `MSG_OTHER`'s seven rows (30 R89) are one row of the message map
of 30 R88, with the message-ID as its operand (log 16). -/
inductive Instr where
  /-- RX_BYTE b: CMD op 000 (41 R131). -/
  | rxByte (b : Byte)
  /-- DECODE_POLL: CMD op 001 (42 R150). -/
  | decodePoll
  /-- SEND_TELEMETRY: CMD op 010 (43 R190). -/
  | sendTelemetry
  /-- CRC_INIT: CMD op 011 (40 R110). -/
  | crcInit
  /-- CRC_UPDATE b: CMD op 100 (40 R111). -/
  | crcUpdate (b : Byte)
  /-- MSG0, battery low-voltage cutoff: RXF id 0 (42 R160). -/
  | msg0 (f : RxFields)
  /-- MSG1, wheel perimeter: RXF id 1 (42 R161). -/
  | msg1 (f : RxFields)
  /-- MSG2, wheel max speed and battery max current: RXF id 2 (42 R162). -/
  | msg2 (f : RxFields)
  /-- MSG3, motor type and startup-boost sub-flags: RXF id 3 (42 R163). -/
  | msg3 (f : RxFields)
  /-- MSG4, startup boost assist level and duration: RXF id 4 (42 R164). -/
  | msg4 (f : RxFields)
  /-- MSG5, startup boost fade time and feature-enabled flag: RXF id 5 (42 R165). -/
  | msg5 (f : RxFields)
  /-- MSG6, motor temperature limits: RXF id 6 (42 R166). -/
  | msg6 (f : RxFields)
  /-- MSG7, ramp-up rate, ramp-up step and target cruise speed: RXF id 7 (42 R167 to R169). -/
  | msg7 (f : RxFields)
  /-- MSG8, temperature-limit enable and assistance without pedalling: RXF id 8 (42 R170). -/
  | msg8 (f : RxFields)
  /-- MSG_OTHER, a reserved message-ID: RXF id 9 to 255 (42 R171). -/
  | msgOther (id : Byte) (f : RxFields)
  /-- TELEMETRY, the transmit frame (43 R190): its fields and the two bytes of its trailer. -/
  | telemetry (p : TxPayload) (crcLo crcHi : Byte)
  deriving DecidableEq, Repr

end Sys2Proof
end

