-- ==== Sys2Proof/WellFormed.lean ====
section
/-! DEFINITION. Which instructions the encodings can express: the one check is that `MSG_OTHER` carries a reserved
message-ID (30 R88, R89); every other operand is legal at every value of its width. -/

namespace Sys2Proof

/-- Is the instruction one that some word encodes? `MSG_OTHER` stands for the IDs 9 to 255 only (30 R89). -/
def Instr.wellFormed : Instr → Bool
  | .rxByte _ => true
  | .decodePoll => true
  | .sendTelemetry => true
  | .crcInit => true
  | .crcUpdate _ => true
  | .msg0 _ => true
  | .msg1 _ => true
  | .msg2 _ => true
  | .msg3 _ => true
  | .msg4 _ => true
  | .msg5 _ => true
  | .msg6 _ => true
  | .msg7 _ => true
  | .msg8 _ => true
  | .msgOther id _ => decide (9 ≤ id.toNat)
  | .telemetry _ _ _ => true

end Sys2Proof
end

