-- ==== Sys2Proof/Decode.lean ====
section
/-! DEFINITION. The three encodings of spec file 30 (CMD, RXF, TXF): the decoder, total on any word or bytes and
rejecting by name, the encoder written from the same tables, and the opcode table as data. -/

namespace Sys2Proof

/-! ### Frame constants and byte order -/

/-- `RX_START`, byte 0 of a receive frame (00 R7). -/
def rxStart : Byte := 0x59

/-- `TX_START`, byte 0 of a transmit frame (00 R7). -/
def txStart : Byte := 0x43

/-- `RX_FRAME_LEN = 1 + N + 2` with `N = 6` (00 R6). -/
def rxFrameLen : Nat := 9

/-- `TX_FRAME_LEN = 1 + M + 2` with `M = 25` (00 R6, C1). -/
def txFrameLen : Nat := 28

/-- A 16-bit field from its low and its high byte (30 R84). -/
def half (lo hi : Byte) : Half := hi ++ lo

/-- The low byte of a 16-bit value, nearer the start of a frame (20 R63). -/
def lowByte (h : Half) : Byte := h.extractLsb' 0 8

/-- The high byte of a 16-bit value. -/
def highByte (h : Half) : Byte := h.extractLsb' 8 8

/-- A 24-bit field from its three bytes, low to high (30 R85). -/
def tick24 (b0 b1 b2 : Byte) : Tick := b2 ++ b1 ++ b0

/-- Byte `k` of a 24-bit field, low to high (30 R85). -/
def tickByte (t : Tick) (k : Nat) : Byte := t.extractLsb' (8 * k) 8

/-- Bit `k` of a byte, as a one-bit value (00 R10). -/
def bitOf (b : Byte) (k : Nat) : Bit := b.extractLsb' k 1

/-- The two high bits of the battery voltage in bits 5:4 of a byte, the rest 0 (30 R87). -/
def packVbatHi (v : BitVec 2) : Byte := v.zeroExtend 8 <<< 4

/-- The two high bits of the battery voltage, read from bits 5:4 (30 R82). -/
def unpackVbatHi (b : Byte) : BitVec 2 := b.extractLsb' 4 2

/-! ### Encoded forms -/

/-- An encoded instruction: a command word, or the bytes of a frame in wire order (30 R80). -/
inductive Code where
  /-- an 11-bit command word (30 R93) -/
  | cmd (w : CmdWord)
  /-- the bytes of a receive frame -/
  | rxf (bytes : List Byte)
  /-- the bytes of a transmit frame -/
  | txf (bytes : List Byte)
  deriving DecidableEq, Repr

/-- Why a command word has no operation (30 R104). -/
inductive CmdError where
  /-- `RESERVED_OP`: op 101, 110 or 111 (30 R97) -/
  | reservedOp
  /-- `NONZERO_DATA`: op 001, 010 or 011 with data other than 0 (30 R98) -/
  | nonzeroData
  deriving DecidableEq, Repr

/-- Why an encoded form decodes to no instruction. -/
inductive DecodeError where
  /-- the command word is refused -/
  | cmd (e : CmdError)
  /-- not nine bytes that begin with the receive start marker (30 R81) -/
  | notRxf
  /-- not 28 bytes that begin with the transmit start marker (30 R82) -/
  | notTxf
  deriving DecidableEq, Repr

/-! ### The decoder -/

/-- An operation without an operand: its data must be `0x00` (30 R94, R98). -/
def withoutData (data : Byte) (i : Instr) : Except CmdError Instr :=
  if data = 0 then .ok i else .error .nonzeroData

/-- The CMD opcode map (30 R96). -/
def decodeCmd (w : CmdWord) : Except CmdError Instr :=
  let data : Byte := w.extractLsb' 0 8
  match (w.extractLsb' 8 3).toNat with
  | 0 => .ok (.rxByte data)
  | 1 => withoutData data .decodePoll
  | 2 => withoutData data .sendTelemetry
  | 3 => withoutData data .crcInit
  | 4 => .ok (.crcUpdate data)
  | _ => .error .reservedOp

/-- The message map (30 R88): which row a message-ID selects. -/
def message (id : Byte) (f : RxFields) : Instr :=
  match id.toNat with
  | 0 => .msg0 f
  | 1 => .msg1 f
  | 2 => .msg2 f
  | 3 => .msg3 f
  | 4 => .msg4 f
  | 5 => .msg5 f
  | 6 => .msg6 f
  | 7 => .msg7 f
  | 8 => .msg8 f
  | _ => .msgOther id f

/-- A receive frame by the layout of 30 R81. -/
def decodeRxf : List Byte → Option Instr
  | [start, id, assist, flags, power, b5, b6, crcLo, crcHi] =>
    if start = rxStart then some (message id ⟨assist, flags, power, b5, b6, crcLo, crcHi⟩) else none
  | _ => none

/-- A transmit frame by the layout of 30 R82. The bits the layout fixes at 0 are not read (log 15). -/
def decodeTxf : List Byte → Option Instr
  | [b0, b1, b2, b3, b4, b5, b6, b7, b8, b9, b10, b11, b12, b13, b14, b15, b16, b17, b18, b19, b20, b21, b22, b23,
      b24, b25, b26, b27] =>
    if b0 = txStart then
      some (.telemetry
        { vbatLo := b1, vbatHi := unpackVbatHi b2, ibat := b3, wheel := half b4 b5, brake := bitOf b6 0, thrRaw := b7,
          tempOrThr := b8, tqRaw := b9, tq := b10, cadence := b11, ppm := b12, duty := b13, erps := half b14 b15,
          foc := b16, state := b17, tlim := b18, tick := tick24 b19 b20 b21, ptq := half b22 b23, ppw := half b24 b25 }
        b26 b27)
    else none
  | _ => none

/-- The decoder of all three encodings: an instruction, or why there is none. -/
def decode : Code → Except DecodeError Instr
  | .cmd w =>
    match decodeCmd w with
    | .ok i => .ok i
    | .error e => .error (.cmd e)
  | .rxf bytes =>
    match decodeRxf bytes with
    | some i => .ok i
    | none => .error .notRxf
  | .txf bytes =>
    match decodeTxf bytes with
    | some i => .ok i
    | none => .error .notTxf

/-! ### The encoder -/

/-- A command word from its two fields (30 R93). -/
def cmdWord (op : BitVec 3) (data : Byte) : CmdWord := op ++ data

/-- The nine bytes of a receive frame in wire order (30 R81). -/
def rxfBytes (id : Byte) (f : RxFields) : List Byte :=
  [rxStart, id, f.assist, f.flags, f.power, f.b5, f.b6, f.crcLo, f.crcHi]

/-- Bytes 0 to 25 of a transmit frame, which its CRC covers (30 R82, 43 R193 to R205). -/
def TxPayload.body (p : TxPayload) : List Byte :=
  [txStart, p.vbatLo, packVbatHi p.vbatHi, p.ibat, lowByte p.wheel, highByte p.wheel, p.brake.zeroExtend 8, p.thrRaw,
    p.tempOrThr, p.tqRaw, p.tq, p.cadence, p.ppm, p.duty, lowByte p.erps, highByte p.erps, p.foc, p.state, p.tlim,
    tickByte p.tick 0, tickByte p.tick 1, tickByte p.tick 2, lowByte p.ptq, highByte p.ptq, lowByte p.ppw,
    highByte p.ppw]

/-- The encoder, from the tables of 30 R81, R82, R88 and R96. -/
def encode : Instr → Code
  | .rxByte b => .cmd (cmdWord 0 b)
  | .decodePoll => .cmd (cmdWord 1 0)
  | .sendTelemetry => .cmd (cmdWord 2 0)
  | .crcInit => .cmd (cmdWord 3 0)
  | .crcUpdate b => .cmd (cmdWord 4 b)
  | .msg0 f => .rxf (rxfBytes 0 f)
  | .msg1 f => .rxf (rxfBytes 1 f)
  | .msg2 f => .rxf (rxfBytes 2 f)
  | .msg3 f => .rxf (rxfBytes 3 f)
  | .msg4 f => .rxf (rxfBytes 4 f)
  | .msg5 f => .rxf (rxfBytes 5 f)
  | .msg6 f => .rxf (rxfBytes 6 f)
  | .msg7 f => .rxf (rxfBytes 7 f)
  | .msg8 f => .rxf (rxfBytes 8 f)
  | .msgOther id f => .rxf (rxfBytes id f)
  | .telemetry p crcLo crcHi => .txf (p.body ++ [crcLo, crcHi])

/-! ### The opcode table as data -/

/-- The mnemonic of an instruction, as the opcode table spells it. -/
def Instr.mnemonic : Instr → String
  | .rxByte _ => "RX_BYTE"
  | .decodePoll => "DECODE_POLL"
  | .sendTelemetry => "SEND_TELEMETRY"
  | .crcInit => "CRC_INIT"
  | .crcUpdate _ => "CRC_UPDATE"
  | .msg0 _ => "MSG0"
  | .msg1 _ => "MSG1"
  | .msg2 _ => "MSG2"
  | .msg3 _ => "MSG3"
  | .msg4 _ => "MSG4"
  | .msg5 _ => "MSG5"
  | .msg6 _ => "MSG6"
  | .msg7 _ => "MSG7"
  | .msg8 _ => "MSG8"
  | .msgOther _ _ => "MSG_OTHER"
  | .telemetry _ _ _ => "TELEMETRY"

/-- A row of the opcode table: it selects a word `F` of its width when `F & mask = match` (30 R83). -/
structure OpcodeRow where
  /-- the row's mnemonic -/
  mnemonic : String
  /-- 11 for CMD, 72 for RXF, 224 for TXF -/
  width : Nat
  /-- the row's `mask` -/
  mask : Nat
  /-- the row's `match` -/
  value : Nat
  deriving DecidableEq, Repr

/-- Does the row select the word (30 R83)? -/
def OpcodeRow.selects (r : OpcodeRow) (width word : Nat) : Bool :=
  r.width = width && (word &&& r.mask) = r.value

/-- The five CMD rows. -/
def cmdRows : List OpcodeRow :=
  [⟨"RX_BYTE", 11, 0x700, 0x000⟩, ⟨"DECODE_POLL", 11, 0x7FF, 0x100⟩, ⟨"SEND_TELEMETRY", 11, 0x7FF, 0x200⟩,
    ⟨"CRC_INIT", 11, 0x7FF, 0x300⟩, ⟨"CRC_UPDATE", 11, 0x700, 0x400⟩]

/-- The sixteen RXF rows; the seven `MSG_OTHER` rows are the aligned blocks of 30 R89. -/
def rxfRows : List OpcodeRow :=
  [⟨"MSG0", 72, 0xFFFF, 0x0059⟩, ⟨"MSG1", 72, 0xFFFF, 0x0159⟩, ⟨"MSG2", 72, 0xFFFF, 0x0259⟩,
    ⟨"MSG3", 72, 0xFFFF, 0x0359⟩, ⟨"MSG4", 72, 0xFFFF, 0x0459⟩, ⟨"MSG5", 72, 0xFFFF, 0x0559⟩,
    ⟨"MSG6", 72, 0xFFFF, 0x0659⟩, ⟨"MSG7", 72, 0xFFFF, 0x0759⟩, ⟨"MSG8", 72, 0xFFFF, 0x0859⟩,
    ⟨"MSG_OTHER", 72, 0xFFFF, 0x0959⟩, ⟨"MSG_OTHER", 72, 0xFEFF, 0x0A59⟩, ⟨"MSG_OTHER", 72, 0xFCFF, 0x0C59⟩,
    ⟨"MSG_OTHER", 72, 0xF0FF, 0x1059⟩, ⟨"MSG_OTHER", 72, 0xE0FF, 0x2059⟩, ⟨"MSG_OTHER", 72, 0xC0FF, 0x4059⟩,
    ⟨"MSG_OTHER", 72, 0x80FF, 0x8059⟩]

/-- The opcode table: 5 CMD rows, 16 RXF rows, 1 TXF row. -/
def opcodeTable : List OpcodeRow := cmdRows ++ rxfRows ++ [⟨"TELEMETRY", 224, 0xFF, 0x43⟩]

/-- A frame as one little-endian number (30 R83): byte `k` is bits `8k+7:8k`. -/
def frameWord : List Byte → Nat
  | [] => 0
  | b :: rest => b.toNat + 256 * frameWord rest

/-- The width in bits and the word of an encoded form, as the opcode table numbers them (30 R83, R93). -/
def Code.tableWord : Code → Nat × Nat
  | .cmd w => (11, w.toNat)
  | .rxf bytes => (8 * bytes.length, frameWord bytes)
  | .txf bytes => (8 * bytes.length, frameWord bytes)

/-- The first `n` bytes of a frame word, byte 0 first (30 R83). -/
def frameBytes : Nat → Nat → List Byte
  | 0, _ => []
  | n + 1, w => BitVec.ofNat 8 w :: frameBytes n (w / 256)

/-- The encoded form that a word of the opcode table stands for, by the row's width in whole bytes: two bytes hold an
11-bit command word, nine a receive frame, 28 a transmit frame. -/
def tableCode (nbits w : Nat) : Option Code :=
  if nbits = 16 ∨ nbits = 11 then
    if w < 2 ^ 11 then some (.cmd (BitVec.ofNat 11 w)) else none
  else if nbits = 8 * rxFrameLen then some (.rxf (frameBytes rxFrameLen w))
  else if nbits = 8 * txFrameLen then some (.txf (frameBytes txFrameLen w))
  else none

/-- The instruction the decoder reads from a word of the opcode table. -/
def decodeTableWord (nbits w : Nat) : Option Instr :=
  match tableCode nbits w with
  | some c => (decode c).toOption
  | none => none

end Sys2Proof
end

