-- ==== Sys2Proof/Machine/Operands.lean ====
section
/-! DEFINITION. The values operations compute from their operands: the CRC (40), the ramp-up step (42 R167, R168), the
current scaling (43 R194), the field selected for byte 8 (43 R198), and the constants of 00 R7 they use. -/

namespace Sys2Proof.Machine

/-! ### Constants -/

/-- `CRC_SEED` (00 R7). -/
def crcSeed : Half := 0xFFFF

/-- `RAMP_MIN` (00 R7). -/
def rampMin : Nat := 4

/-- `RAMP_MAX` (00 R7). -/
def rampMax : Nat := 100

/-- `RAMP_CONST` (00 R7). -/
def rampConst : Nat := 97656

/-! ### The parameters -/

/-- The parameters the machine's meanings run on (00 R8): the opaque ones of Config. -/
def machineParams : Params := Config.params

/-! ### The CRC -/

/-- One iteration of the reference step: shift right, and fold in `0xA001` if a one fell out (40 R112). -/
def crcShift (c : Half) : Half :=
  if c.getLsbD 0 then (c >>> 1) ^^^ 0xA001 else c >>> 1

/-- `CRC16_STEP_REF`, CRC-16/MODBUS: the reference instantiation of `CRC16_STEP` (40 R112). The machine's own step is
`Config.crc16Step`, of which nothing is known (log 1). -/
def crc16StepRef (acc : Half) (b : Byte) : Half :=
  Nat.repeat crcShift 8 (acc ^^^ b.zeroExtend 16)

/-- `FrameCRC` (40 R114): the byte update folded over the bytes in order, from the seed. -/
def frameCrc (p : Params) (bytes : List Byte) : Half :=
  bytes.foldl p.crc16Step crcSeed

/-! ### The ramp-up rate -/

/-- Is the byte a valid ramp-up rate (42 R167)? -/
def rampInRange (r : Byte) : Bool :=
  rampMin ≤ r.toNat && r.toNat ≤ rampMax

/-- The ramp-up rate stored for a received byte: an out-of-range one is replaced by the default (42 R167, C3). -/
def rampRate (rampDefault r : Byte) : Byte :=
  if rampInRange r then r else rampDefault

/-- `RAMP_CONST div rate`, truncating (42 R168). -/
def rampStep (rate : Byte) : Half :=
  BitVec.ofNat 16 (rampConst / rate.toNat)

/-! ### The configuration registers by number -/

/-- Register `cfg[n]` by its number in the tables of 10 R32 and R33, zero-extended to 16 bits. No operation reads a
register by number (10 R31); statements do. -/
def CfgFile.read (c : CfgFile) (n : Fin 22) : Half :=
  match n.val with
  | 0 => c.assistLevel.zeroExtend 16
  | 1 => c.lightsOn.zeroExtend 16
  | 2 => c.walkAssist.zeroExtend 16
  | 3 => c.batteryMaxPowerDiv25.zeroExtend 16
  | 4 => c.batteryLowVoltageCutoff
  | 5 => c.wheelPerimeter
  | 6 => c.wheelMaxSpeed.zeroExtend 16
  | 7 => c.batteryMaxCurrent.zeroExtend 16
  | 8 => c.motorType.zeroExtend 16
  | 9 => c.startupBoostEnabled.zeroExtend 16
  | 10 => c.startupBoostLimitMaxPower.zeroExtend 16
  | 11 => c.startupBoostAssistLevel.zeroExtend 16
  | 12 => c.startupBoostDuration.zeroExtend 16
  | 13 => c.startupBoostFadeTime.zeroExtend 16
  | 14 => c.startupBoostFeatureEnabled.zeroExtend 16
  | 15 => c.motorTempLowerLimit.zeroExtend 16
  | 16 => c.motorTempUpperLimit.zeroExtend 16
  | 17 => c.rampUpRateX10.zeroExtend 16
  | 18 => c.rampUpStep
  | 19 => c.targetCruiseSpeed.zeroExtend 16
  | 20 => c.temperatureLimitEnabled.zeroExtend 16
  | _ => c.assistWithoutPedalRotation.zeroExtend 16

/-! ### Telemetry fields -/

/-- `CurScale(i) = low8(floor(i × 826 / 1000))` (43 R194). -/
def curScale (i : Half) : Byte :=
  BitVec.ofNat 8 (i.toNat * 826 / 1000)

/-- The content of transmit byte 8: the motor temperature when the whole-byte flag `cfg[20]` is non-zero, else the
processed throttle value (43 R198, 10 R34). -/
def tempOrThrottle (limitEnabled : Byte) (t : Telemetry) : Byte :=
  if limitEnabled ≠ 0 then t.motorTemperature else t.throttleProcessed

end Sys2Proof.Machine
end

