-- ==== Sys2Proof/Machine/Ops.lean ====
section
/-! DEFINITION. The named operations over the state: the receive buffer (20 R60), register and stream writes, the
model-level refusal (30 R104), the environment's next operation (30 R93), and what placing a program in the machine
takes. The block has no exception to take and none to return from (60 R230, R241, R242): its one interrupt is the
RX_BYTE step of Machine/Receiver.lean, which saves and restores nothing. -/

namespace Sys2Proof.Machine

/-! ### The receive buffer -/

/-- The byte at an offset of the receive buffer, if it has been written since reset (10 R24). -/
def Memory.read : Memory → Nat → Option Byte
  | [], _ => none
  | (k, v) :: rest, a => if k = a then some v else Memory.read rest a

/-- Write one byte, keeping the cells' offsets strictly rising. -/
def Memory.write : Memory → Nat → Byte → Memory
  | [], a, b => [(a, b)]
  | (k, v) :: rest, a, b =>
    if a < k then (a, b) :: (k, v) :: rest
    else if a = k then (a, b) :: rest
    else (k, v) :: Memory.write rest a b

/-- Are the cells' offsets strictly rising from `lo`, and inside the buffer (20 R60)? -/
def Memory.risingFrom : Nat → Memory → Bool
  | _, [] => true
  | lo, (k, _) :: rest => lo ≤ k && k < rxFrameLen && Memory.risingFrom (k + 1) rest

/-- The canonical form of the receive buffer: offsets strictly rising, each 0 to 8. An unlisted offset reads as
unwritten, which no cell can say, so equal buffers are equal lists. -/
def Memory.wf (m : Memory) : Bool := Memory.risingFrom 0 m

/-- The contents of an offset: the byte written there, or what the buffer held at reset (10 R24, U1; log 3). -/
def Memory.contents (p : Params) (m : Memory) (a : Nat) : Byte :=
  (Memory.read m a).getD (p.rxBufAtReset a)

/-- Replace the contents of the receive buffer. -/
def State.setRxBuf (s : State) (m : Memory) : State := { s with rxBuf := m }

/-- `rx_buf[a] <- b`. Offsets outside 0 to 8 do not exist (20 R60, R61). -/
def State.storeRx (s : State) (a : Nat) (b : Byte) : Except Fault State :=
  if a < rxFrameLen then .ok (s.setRxBuf (Memory.write s.rxBuf a b)) else .error .rxOffset

/-! ### Registers and the output stream -/

/-- `rx_state <- st` and `rx_index <- i`: every RX_BYTE step writes the pair (41 R131). -/
def State.setReceiver (s : State) (st : RxState) (i : BitVec 4) : State := { s with rxState := st, rxIndex := i }

/-- `crc_rx <- v` (42 R152). -/
def State.setCrcRx (s : State) (v : Half) : State := { s with crcRx := ⟨v, true⟩ }

/-- `crc_tx <- v` (43 R206). -/
def State.setCrcTx (s : State) (v : Half) : State := { s with crcTx := ⟨v, true⟩ }

/-- `crc_acc <- v` (40 R110, R111). -/
def State.setCrcAcc (s : State) (v : Half) : State := { s with crcAcc := ⟨v, true⟩ }

/-- Write the configuration register file. -/
def State.setCfg (s : State) (c : CfgFile) : State := { s with cfg := c }

/-- `Emit(e)` (00 R11): append one event to the output stream. -/
def State.emit (s : State) (e : Event) : State := { s with output := s.output ++ [e] }

/-- Append events in order (43 R207). -/
def State.emitAll (s : State) (es : List Event) : State := { s with output := s.output ++ es }

/-! ### Refusal -/

/-- Set the refusal mark and change nothing else (30 R104). -/
def State.mark (s : State) (r : Refusal) : State := { s with refusalMark := some r }

/-- `Refuse(reason)` (30 R104): the step sets the refusal mark and changes no other state. -/
def refuse (r : Refusal) (s : State) : Host.Outcome State Fault Refusal := .next (s.mark r)

/-- The refusal that a command word without an operation meets (30 R97, R98). -/
def refusalOf : CmdError → Refusal
  | .reservedOp => .reservedOp
  | .nonzeroData => .nonzeroData

/-- Is the configuration well formed (00 R9)? -/
def setupWellFormed (c : Setup) : Bool := rampInRange c.rampDefault

/-- A meaning that uses the configuration: a configuration that breaks 00 R9 is refused, `BAD_CONFIG` (30 R104). -/
def configured (s : State) (k : State → Host.Outcome State Fault Refusal) : Host.Outcome State Fault Refusal :=
  if setupWellFormed s.setup then k s else refuse .badConfig s

/-- A result that is a next state or a fault, as an outcome. -/
def outcomeOf (r : Except Fault State) : Host.Outcome State Fault Refusal :=
  match r with
  | .ok t => .next t
  | .error f => .fault f

/-! ### The environment's next operation -/

/-- Take an offer: its inputs stand during the step, and the offers after it remain (log 7, log 8). -/
def State.accept (s : State) (o : Offer) (rest : List Offer) : State := { s with inputs := o.inputs, offers := rest }

/-- What the next step does. -/
inductive NextOp where
  /-- the refusal mark is set: the state is given no further meaning (30 R104, log 11) -/
  | stop (r : Refusal)
  /-- the configuration or the word offered is refused (30 R97, R98, R104) -/
  | reject (r : Refusal)
  /-- the environment offers nothing (70 R262, log 7) -/
  | idle
  /-- the instruction of the word offered, and the state that has accepted it -/
  | run (i : Instr) (s : State)
  deriving DecidableEq, Repr

/-- Select the next operation: the mark and the configuration first, then the word the environment offers (log 12). -/
def nextOp (s : State) : NextOp :=
  match s.refusalMark with
  | some r => .stop r
  | none =>
    if setupWellFormed s.setup then
      match s.offers with
      | [] => .idle
      | o :: rest =>
        match decodeCmd o.word with
        | .ok i => .run i (s.accept o rest)
        | .error e => .reject (refusalOf e)
    else .reject .badConfig

/-! ### Placing an instruction for the next step -/

/-- Offer one operation before all others. -/
def State.offerFirst (s : State) (o : Offer) : State := { s with offers := o :: s.offers }

/-- A receive buffer that holds the bytes from offset `a` on. -/
def bufferFrom : Nat → List Byte → Memory
  | _, [] => []
  | a, b :: rest => (a, b) :: bufferFrom (a + 1) rest

/-- A complete frame in the buffer, as the RX_BYTE step that completes one leaves it (41 R134). -/
def State.holdFrame (s : State) (bytes : List Byte) : State :=
  (((s.setRxBuf (bufferFrom 0 bytes)).setReceiver .idle 0).raiseReady).disarmReceiver

/-- The smallest raw current whose scaled value is `b` (43 R194). -/
def rawCurrentFor (b : Byte) : Half := BitVec.ofNat 16 ((b.toNat * 1000 + 825) / 826)

/-- A telemetry sample that the encoder turns into the given payload, whatever `cfg[20]` holds (43 R190). -/
def sampleFor (p : TxPayload) : Telemetry where
  battVoltageAdc := (p.vbatHi ++ p.vbatLo).zeroExtend 16
  battCurrentRaw := rawCurrentFor p.ibat
  wheelSpeed := p.wheel
  brake := p.brake
  throttleAdcRaw := p.thrRaw
  motorTemperature := p.tempOrThr
  throttleProcessed := p.tempOrThr
  torqueAdcRaw := p.tqRaw
  torqueProcessed := p.tq
  pedalCadence := p.cadence
  pedalPowerMapped := p.ppm
  pwmDutyCycle := p.duty
  motorErps := p.erps
  focAngle := p.foc
  systemState := p.state
  tempLimitingValue := p.tlim
  tickCounter := p.tick
  pedalTorqueX10 := p.ptq
  pedalPowerX10 := p.ppw

/-- Place an encoded instruction so that the very next step runs it (log 7): a command word is offered; a receive
frame stands complete in the buffer and a poll is offered; a transmit frame is the one the telemetry inputs of an
offered send give. -/
def State.place (s : State) (c : Code) : State :=
  match c with
  | .cmd w => s.offerFirst ⟨w, s.inputs⟩
  | .rxf bytes => (s.holdFrame bytes).offerFirst ⟨cmdWord 1 0, { s.inputs with arrivals := [] }⟩
  | .txf bytes =>
    match decodeTxf bytes with
    | some (.telemetry p _ _) => s.offerFirst ⟨cmdWord 2 0, { s.inputs with telemetry := sampleFor p }⟩
    | _ => s

end Sys2Proof.Machine
end

