-- ==== Sys2Proof/Machine/Crc.lean ====
section
/-! DEFINITION. The CRC engine (spec file 40): CRC_INIT and CRC_UPDATE on the stand-alone accumulator `crc_acc`
(30 R95). The decoder and the encoder fold the same step over their own accumulators (`frameCrc`, 40 R114). -/

namespace Sys2Proof.Machine

/-- Fold one byte into `crc_acc`; on an accumulator never initialised since reset, the fault the spec names there,
`FAULT_UNWRITTEN_CRC` (40 R111, R113, D8, U2, 60 R237, vector C4). -/
def crcUpdate (p : Params) (b : Byte) (s : State) : Host.Outcome State Fault Refusal :=
  if s.crcAcc.initialised then .next (s.setCrcAcc (p.crc16Step s.crcAcc.value b)) else .fault .unwrittenCrc

/-- CRC_INIT (40 R110): `crc_acc <- 0xFFFF`, whatever it held. -/
def execCrcInit (s : State) : Host.Outcome State Fault Refusal := .next (s.setCrcAcc crcSeed)

/-- CRC_UPDATE b (40 R111): `crc_acc <- CRC16_STEP(crc_acc, b)`. -/
def execCrcUpdate (b : Byte) (s : State) : Host.Outcome State Fault Refusal := crcUpdate machineParams b s

end Sys2Proof.Machine
end

