-- ==== Sys2Proof/Machine/Receiver.lean ====
section
/-! DEFINITION. The frame receiver (spec file 41): RX_BYTE, which is also the handler of the block's one interrupt
(60 R238, R241), and the RX_BYTE steps that fall inside a pre-emptible poll (42 R151). -/

namespace Sys2Proof.Machine

/-- Completion (41 R134): the ninth byte is stored; index 0, IDLE, `ready <- 1`, `rx_enabled <- 0`. -/
def State.completeFrame (s : State) : State := ((s.setReceiver .idle 0).raiseReady).disarmReceiver

/-- COLLECTING, any byte (41 R133): store it at the index, whatever its value, and advance; at 9, complete. -/
def collectByte (b : Byte) (s : State) : Except Fault State :=
  match s.storeRx s.rxIndex.toNat b with
  | .error f => .error f
  | .ok t => .ok (if s.rxIndex + 1 = 9 then t.completeFrame else t.setReceiver .collecting (s.rxIndex + 1))

/-- RX_BYTE b (41 R131): dropped while the channel is disabled (R130); in IDLE a start byte begins a frame (R132) and
any other is noise (R135); in COLLECTING every byte is data (R133). -/
def receiveByte (b : Byte) (s : State) : Except Fault State :=
  if s.rxEnabled then
    match s.rxState with
    | .idle =>
      if b = rxStart then
        match s.storeRx 0 b with
        | .error f => .error f
        | .ok t => .ok (t.setReceiver .collecting 1)
      else .ok (s.setReceiver .idle 0)
    | .collecting => collectByte b s
  else .ok s

/-- The RX_BYTE steps inside a poll's interval (42 R151), in order: the buffer at each instant, the opening first, and
the state after the last of them. -/
def runArrivals : List Byte → State → Except Fault (List Memory × State)
  | [], s => .ok ([s.rxBuf], s)
  | b :: rest, s =>
    match receiveByte b s with
    | .error f => .error f
    | .ok t =>
      match runArrivals rest t with
      | .error f => .error f
      | .ok (later, u) => .ok (s.rxBuf :: later, u)

/-- RX_BYTE b (41 R131). -/
def execRxByte (b : Byte) (s : State) : Host.Outcome State Fault Refusal := outcomeOf (receiveByte b s)

end Sys2Proof.Machine
end

