-- ==== Sys2Proof/Machine/Decoder.lean ====
section
/-! DEFINITION. The inbound decoder (spec file 42): DECODE_POLL, its two views of the buffer, and one meaning per
message-ID. -/

namespace Sys2Proof.Machine

/-! ### The views -/

/-- What one poll reads (42 R151): the CRC view `c[0..8]` and the field view `f[1..6]`. -/
structure View where
  /-- `c[0..6]`, the bytes the CRC covers -/
  covered : List Byte
  /-- `c[7]` -/
  crcLo : Byte
  /-- `c[8]` -/
  crcHi : Byte
  /-- `f[1]` -/
  id : Byte
  /-- `f[2]` -/
  assist : Byte
  /-- `f[3]` -/
  flags : Byte
  /-- `f[4]` -/
  power : Byte
  /-- `f[5]` -/
  b5 : Byte
  /-- `f[6]` -/
  b6 : Byte
  deriving DecidableEq, Repr

/-- Offset `a` as it stood at instant `k` of the interval; an instant past the last is the opening (log 9). -/
def byteAt (p : Params) (instants : List Memory) (k a : Nat) : Byte :=
  Memory.contents p (instants.getD k (instants.headD [])) a

/-- The views of a poll, each read at the instant the inputs give it (42 R151). -/
def viewAt (p : Params) (instants : List Memory) (inp : Inputs) : View where
  covered :=
    [byteAt p instants inp.crcInstants[0] 0, byteAt p instants inp.crcInstants[1] 1,
      byteAt p instants inp.crcInstants[2] 2, byteAt p instants inp.crcInstants[3] 3,
      byteAt p instants inp.crcInstants[4] 4, byteAt p instants inp.crcInstants[5] 5,
      byteAt p instants inp.crcInstants[6] 6]
  crcLo := byteAt p instants inp.crcInstants[7] 7
  crcHi := byteAt p instants inp.crcInstants[8] 8
  id := byteAt p instants inp.fieldInstants[0] 1
  assist := byteAt p instants inp.fieldInstants[1] 2
  flags := byteAt p instants inp.fieldInstants[2] 3
  power := byteAt p instants inp.fieldInstants[3] 4
  b5 := byteAt p instants inp.fieldInstants[4] 5
  b6 := byteAt p instants inp.fieldInstants[5] 6

/-- The views of an atomic poll: every byte as the buffer holds it (42 R151). -/
def viewOf (p : Params) (m : Memory) : View where
  covered :=
    [Memory.contents p m 0, Memory.contents p m 1, Memory.contents p m 2, Memory.contents p m 3,
      Memory.contents p m 4, Memory.contents p m 5, Memory.contents p m 6]
  crcLo := Memory.contents p m 7
  crcHi := Memory.contents p m 8
  id := Memory.contents p m 1
  assist := Memory.contents p m 2
  flags := Memory.contents p m 3
  power := Memory.contents p m 4
  b5 := Memory.contents p m 5
  b6 := Memory.contents p m 6

/-- The views of a frame whose bytes every read of the poll agrees on. -/
def viewOfFrame (id : Byte) (f : RxFields) : View where
  covered := [rxStart, id, f.assist, f.flags, f.power, f.b5, f.b6]
  crcLo := f.crcLo
  crcHi := f.crcHi
  id := id
  assist := f.assist
  flags := f.flags
  power := f.power
  b5 := f.b5
  b6 := f.b6

/-- The 16-bit value the trailer encodes, low byte first (42 R153). -/
def View.expected (v : View) : Half := half v.crcLo v.crcHi

/-! ### One operation per message-ID: what `Dispatch` runs (42 R158) -/

/-- MSG0 (42 R160): the cutoff voltage is stored, and the step derived from it is pushed to the motor. -/
def dispatchMsg0 (p : Params) (b5 b6 : Byte) (s : State) : State :=
  (s.setCfg { s.cfg with batteryLowVoltageCutoff := half b5 b6 }).emit (.cutoffStep (p.cutoffStep (half b5 b6)))

/-- MSG1 (42 R161). -/
def dispatchMsg1 (b5 b6 : Byte) (s : State) : State :=
  s.setCfg { s.cfg with wheelPerimeter := half b5 b6 }

/-- MSG2 (42 R162): only the battery max current is pushed to the motor (D16). -/
def dispatchMsg2 (b5 b6 : Byte) (s : State) : State :=
  (s.setCfg { s.cfg with wheelMaxSpeed := b5, batteryMaxCurrent := b6 }).emit (.maxCurrent b6)

/-- MSG3 (42 R163): bits 7:2 of byte 6 are ignored (10 R35). -/
def dispatchMsg3 (b5 b6 : Byte) (s : State) : State :=
  s.setCfg { s.cfg with
    motorType := b5, startupBoostEnabled := bitOf b6 0, startupBoostLimitMaxPower := bitOf b6 1 }

/-- MSG4 (42 R164). -/
def dispatchMsg4 (b5 b6 : Byte) (s : State) : State :=
  s.setCfg { s.cfg with startupBoostAssistLevel := b5, startupBoostDuration := b6 }

/-- MSG5 (42 R165): the whole byte is stored as the flag (10 R34). -/
def dispatchMsg5 (b5 b6 : Byte) (s : State) : State :=
  s.setCfg { s.cfg with startupBoostFadeTime := b5, startupBoostFeatureEnabled := b6 }

/-- MSG6 (42 R166): no order of the two limits is checked. -/
def dispatchMsg6 (b5 b6 : Byte) (s : State) : State :=
  s.setCfg { s.cfg with motorTempLowerLimit := b5, motorTempUpperLimit := b6 }

/-- MSG7 (42 R167 to R169): the rate, or the default if it is out of range; the step from the rate just stored; the
raw cruise speed. -/
def dispatchMsg7 (b5 b6 : Byte) (s : State) : State :=
  s.setCfg { s.cfg with
    rampUpRateX10 := rampRate s.setup.rampDefault b5
    rampUpStep := rampStep (rampRate s.setup.rampDefault b5)
    targetCruiseSpeed := b6 }

/-- MSG8 (42 R170): both flags are stored as whole bytes (10 R34). -/
def dispatchMsg8 (b5 b6 : Byte) (s : State) : State :=
  s.setCfg { s.cfg with temperatureLimitEnabled := b5, assistWithoutPedalRotation := b6 }

/-- MSG_OTHER (42 R171): nothing ID-specific. -/
def dispatchMsgOther (s : State) : State := s

/-- `Dispatch(id, f[5], f[6])` (42 R158): the one rule the map of 30 R88 selects. -/
def dispatch (p : Params) (id b5 b6 : Byte) (s : State) : State :=
  match id.toNat with
  | 0 => dispatchMsg0 p b5 b6 s
  | 1 => dispatchMsg1 b5 b6 s
  | 2 => dispatchMsg2 b5 b6 s
  | 3 => dispatchMsg3 b5 b6 s
  | 4 => dispatchMsg4 b5 b6 s
  | 5 => dispatchMsg5 b5 b6 s
  | 6 => dispatchMsg6 b5 b6 s
  | 7 => dispatchMsg7 b5 b6 s
  | 8 => dispatchMsg8 b5 b6 s
  | _ => dispatchMsgOther s

/-! ### The body of a poll -/

/-- The registers after the common fields are written (42 R156); bits 7:2 of byte 3 are ignored (10 R35). -/
def commonCfg (v : View) (c : CfgFile) : CfgFile :=
  { c with
    assistLevel := v.assist, lightsOn := bitOf v.flags 0, walkAssist := bitOf v.flags 1
    batteryMaxPowerDiv25 := v.power }

/-- The common fields (42 R156), written on every match. -/
def applyCommon (v : View) (s : State) : State := s.setCfg (commonCfg v s.cfg)

/-- The match path (42 R150): the common fields and `LIGHTS`, the message's own operation, `PERSIST`, the handoff. -/
def matchPath (v : View) (own : State → State) (s : State) : State :=
  ((((own ((applyCommon v s).emit (.lights (bitOf v.flags 0)))).emit .persist).clearReady).armReceiver)

/-- The commit of a poll whose views are `v` (42 R152 to R155): `crc_rx` gets the CRC of the covered bytes; on a
mismatch the receiver is re-armed and nothing else changes. -/
def commit (p : Params) (v : View) (own : State → State) (s : State) : State :=
  if frameCrc p v.covered = v.expected then matchPath v own (s.setCrcRx (frameCrc p v.covered))
  else (s.setCrcRx (frameCrc p v.covered)).armReceiver

/-- The commit of a poll that dispatches on the message-ID of its field view (42 R158). -/
def commitView (p : Params) (v : View) (s : State) : State := commit p v (dispatch p v.id v.b5 v.b6) s

/-- A PREEMPTIBLE poll (42 R151): the RX_BYTE steps inside the interval, then the commit. -/
def pollPreemptible (p : Params) (s : State) : Host.Outcome State Fault Refusal :=
  match runArrivals s.inputs.arrivals s with
  | .error f => .fault f
  | .ok (instants, t) => .next (commitView p (viewAt p instants s.inputs) t)

/-- DECODE_POLL (42 R150): nothing when `ready` is 0; else by `DECODE_VIEW`. -/
def decodePoll (p : Params) (s : State) : Host.Outcome State Fault Refusal :=
  if s.ready then
    match s.setup.decodeView with
    | .atomic => .next (commitView p (viewOf p s.rxBuf) s)
    | .preemptible => pollPreemptible p s
  else .next s

/-! ### The meanings -/

/-- DECODE_POLL (42 R150). -/
def execDecodePoll (s : State) : Host.Outcome State Fault Refusal := configured s (decodePoll machineParams)

/-- MSG0 (42 R160): the poll of a frame with this message-ID, both views that frame (log 14). -/
def execMsg0 (f : RxFields) (s : State) : Host.Outcome State Fault Refusal :=
  .next (commit machineParams (viewOfFrame 0 f) (dispatchMsg0 machineParams f.b5 f.b6) s)

/-- MSG1 (42 R161). -/
def execMsg1 (f : RxFields) (s : State) : Host.Outcome State Fault Refusal :=
  .next (commit machineParams (viewOfFrame 1 f) (dispatchMsg1 f.b5 f.b6) s)

/-- MSG2 (42 R162). -/
def execMsg2 (f : RxFields) (s : State) : Host.Outcome State Fault Refusal :=
  .next (commit machineParams (viewOfFrame 2 f) (dispatchMsg2 f.b5 f.b6) s)

/-- MSG3 (42 R163). -/
def execMsg3 (f : RxFields) (s : State) : Host.Outcome State Fault Refusal :=
  .next (commit machineParams (viewOfFrame 3 f) (dispatchMsg3 f.b5 f.b6) s)

/-- MSG4 (42 R164). -/
def execMsg4 (f : RxFields) (s : State) : Host.Outcome State Fault Refusal :=
  .next (commit machineParams (viewOfFrame 4 f) (dispatchMsg4 f.b5 f.b6) s)

/-- MSG5 (42 R165). -/
def execMsg5 (f : RxFields) (s : State) : Host.Outcome State Fault Refusal :=
  .next (commit machineParams (viewOfFrame 5 f) (dispatchMsg5 f.b5 f.b6) s)

/-- MSG6 (42 R166). -/
def execMsg6 (f : RxFields) (s : State) : Host.Outcome State Fault Refusal :=
  .next (commit machineParams (viewOfFrame 6 f) (dispatchMsg6 f.b5 f.b6) s)

/-- MSG7 (42 R167 to R169): it uses the configured default, so an ill-formed configuration is refused (00 R9). -/
def execMsg7 (f : RxFields) (s : State) : Host.Outcome State Fault Refusal :=
  configured s fun t => .next (commit machineParams (viewOfFrame 7 f) (dispatchMsg7 f.b5 f.b6) t)

/-- MSG8 (42 R170). -/
def execMsg8 (f : RxFields) (s : State) : Host.Outcome State Fault Refusal :=
  .next (commit machineParams (viewOfFrame 8 f) (dispatchMsg8 f.b5 f.b6) s)

/-- MSG_OTHER (42 R171): the common fields and the handoff only. -/
def execMsgOther (id : Byte) (f : RxFields) (s : State) : Host.Outcome State Fault Refusal :=
  .next (commit machineParams (viewOfFrame id f) dispatchMsgOther s)

end Sys2Proof.Machine
end

