-- ==== Sys2Proof/Machine/Encoder.lean ====
section
/-! DEFINITION. The outbound encoder (spec file 43): SEND_TELEMETRY, and the transmit frame it builds. The frame is no
state (20 R62). -/

namespace Sys2Proof.Machine

/-- Build bytes 1 to 25 of the frame from one sample of the inputs and `cfg[20]` (43 R190, R193 to R205). -/
def buildPayload (limitEnabled : Byte) (t : Telemetry) : TxPayload where
  vbatLo := t.battVoltageAdc.extractLsb' 0 8
  vbatHi := t.battVoltageAdc.extractLsb' 8 2
  ibat := curScale t.battCurrentRaw
  wheel := t.wheelSpeed
  brake := t.brake
  thrRaw := t.throttleAdcRaw
  tempOrThr := tempOrThrottle limitEnabled t
  tqRaw := t.torqueAdcRaw
  tq := t.torqueProcessed
  cadence := t.pedalCadence
  ppm := t.pedalPowerMapped
  duty := t.pwmDutyCycle
  erps := t.motorErps
  foc := t.focAngle
  state := t.systemState
  tlim := t.tempLimitingValue
  tick := t.tickCounter
  ptq := t.pedalTorqueX10
  ppw := t.pedalPowerX10

/-- The 28 bytes of the frame, its trailer injected: the CRC over bytes 0 to 25, low byte first (43 R206, C1). -/
def txFrame (p : Params) (q : TxPayload) : List Byte :=
  q.body ++ [lowByte (frameCrc p q.body), highByte (frameCrc p q.body)]

/-- Send a frame: `crc_tx` gets its CRC, and its 28 bytes are emitted in order and nothing else (43 R206, R207). -/
def emitFrame (p : Params) (q : TxPayload) (s : State) : State :=
  (s.setCrcTx (frameCrc p q.body)).emitAll ((txFrame p q).map Event.tx)

/-- SEND_TELEMETRY (43 R190): the frame of the inputs as they stand at the step, and of `cfg[20]`. -/
def execSendTelemetry (s : State) : Host.Outcome State Fault Refusal :=
  .next (emitFrame machineParams (buildPayload s.cfg.temperatureLimitEnabled s.inputs.telemetry) s)

/-- TELEMETRY (43 R190, 30 R103): the emission of a frame with these fields. Its trailer is injected by the block
(43 R206), so the two trailer bytes of the word are not read (log 15). -/
def execTelemetry (p : TxPayload) (_crcLo _crcHi : Byte) (s : State) : Host.Outcome State Fault Refusal :=
  .next (emitFrame machineParams p s)

end Sys2Proof.Machine
end

