-- ==== Sys2Proof/Machine/Dispatch.lean ====
section
/-! DEFINITION. The dispatch: one arm per constructor of `Instr`, each one direct call of its meaning. -/

namespace Sys2Proof.Machine

def exec (i : Instr) (s : State) : Host.Outcome State Fault Refusal :=
  match i with
  | .rxByte b => Sys2Proof.Machine.execRxByte b s
  | .decodePoll => Sys2Proof.Machine.execDecodePoll s
  | .sendTelemetry => Sys2Proof.Machine.execSendTelemetry s
  | .crcInit => Sys2Proof.Machine.execCrcInit s
  | .crcUpdate b => Sys2Proof.Machine.execCrcUpdate b s
  | .msg0 f => Sys2Proof.Machine.execMsg0 f s
  | .msg1 f => Sys2Proof.Machine.execMsg1 f s
  | .msg2 f => Sys2Proof.Machine.execMsg2 f s
  | .msg3 f => Sys2Proof.Machine.execMsg3 f s
  | .msg4 f => Sys2Proof.Machine.execMsg4 f s
  | .msg5 f => Sys2Proof.Machine.execMsg5 f s
  | .msg6 f => Sys2Proof.Machine.execMsg6 f s
  | .msg7 f => Sys2Proof.Machine.execMsg7 f s
  | .msg8 f => Sys2Proof.Machine.execMsg8 f s
  | .msgOther id f => Sys2Proof.Machine.execMsgOther id f s
  | .telemetry p lo hi => Sys2Proof.Machine.execTelemetry p lo hi s

end Sys2Proof.Machine
end

