-- ==== Sys2Proof/Machine/Step.lean ====
section
/-! DEFINITION. One step of the block: the operation the environment offers (20 R70), and how an instruction is placed
for the next step. -/

namespace Sys2Proof.Machine

/-- One step (20 R70, 30 R93). A marked state is given no further meaning; a refused configuration or word sets the
mark (30 R104); with nothing offered the block waits (70 R262, R275). -/
def step (s : State) : Host.Outcome State Fault Refusal :=
  match nextOp s with
  | .stop r => .refused r
  | .reject r => refuse r s
  | .idle => .next s
  | .run i t => exec i t

/-- The state with the instruction of a table word placed for the next step (log 7). -/
def State.withFetchWord (s : State) (nbits w : Nat) : State :=
  match tableCode nbits w with
  | some c => s.place c
  | none => s

end Sys2Proof.Machine
end

