-- ==== Sys2Proof/Safety.lean ====
section
/-! DEFINITION. What claims about a run use: the invariants of the state (10 R23, R24, R27, R33), the runs the
integrated core makes (60 R237), and sequences of instructions. -/

namespace Sys2Proof.Machine

/-! ### Invariants -/

/-- The receiver's control state (10 R23): IDLE implies index 0, COLLECTING implies an index of 1 to 8. -/
abbrev State.ReceiverInv (s : State) : Prop :=
  match s.rxState with
  | .idle => s.rxIndex = 0
  | .collecting => 1 ≤ s.rxIndex.toNat ∧ s.rxIndex.toNat ≤ 8

/-- Every offset below `n` of the receive buffer has been written since reset. -/
abbrev State.WrittenBelow (s : State) (n : Nat) : Prop :=
  ∀ a, a < n → (Memory.read s.rxBuf a).isSome

/-- The receive buffer (10 R24): its canonical form; offset 0 only ever written with the start marker; every offset
below the index written; all nine written while `ready` is 1. -/
abbrev State.BufferInv (s : State) : Prop :=
  Memory.wf s.rxBuf = true ∧ (∀ b, Memory.read s.rxBuf 0 = some b → b = rxStart) ∧
    (s.rxState = .collecting → s.WrittenBelow s.rxIndex.toNat) ∧ (s.ready = true → s.WrittenBelow rxFrameLen)

/-- The handoff (20 R72, 10 R27): while the channel is disabled a frame is ready and the receiver is IDLE. -/
abbrev State.HandoffInv (s : State) : Prop :=
  s.rxEnabled = false → s.ready = true ∧ s.rxState = .idle

/-- The invariant of every state reachable from reset. -/
structure State.Inv (s : State) : Prop where
  /-- 10 R23 -/
  receiver : s.ReceiverInv
  /-- 10 R24 -/
  buffer : s.BufferInv
  /-- 20 R72 -/
  handoff : s.HandoffInv

/-- The ramp-up pair (10 R33, R37): the rate is valid, and the step is the quotient that belongs to it. -/
def State.RampInv (s : State) : Prop :=
  rampInRange s.cfg.rampUpRateX10 = true ∧ s.cfg.rampUpStep = rampStep s.cfg.rampUpRateX10

/-! ### Safe runs -/

/-- Is the operation one of the integrated core's own: RX_BYTE, DECODE_POLL or SEND_TELEMETRY (60 R237)? -/
def coreWord (w : CmdWord) : Bool :=
  match decodeCmd w with
  | .ok i => i.mnemonic ∈ ["RX_BYTE", "DECODE_POLL", "SEND_TELEMETRY"]
  | .error _ => false

/-- A state driven as 60 R237 says: a well-formed configuration, no refusal so far, and only the core's own
operations still to come. -/
structure State.Driven (s : State) : Prop where
  /-- 00 R9 -/
  setup : setupWellFormed s.setup = true
  /-- 30 R104 -/
  unmarked : s.refusalMark = none
  /-- only RX_BYTE, DECODE_POLL and SEND_TELEMETRY are offered -/
  offers : ∀ o, o ∈ s.offers → coreWord o.word = true

/-! ### Sequences of instructions -/

/-- Run instructions in order, up to the first that stops. -/
def runInstrs : List Instr → State → Host.Outcome State Fault Refusal
  | [], s => .next s
  | i :: rest, s =>
    match exec i s with
    | .next t => runInstrs rest t
    | .fault f => .fault f
    | .refused r => .refused r

end Sys2Proof.Machine
end

