-- ==== Sys2Proof/Certificates/Slice0/Obligations.lean ====
section
/-! DEFINITION. The statements for the provers. The spec's files are cited by number: 41 R131 is rule R131 of
spec/41_frame_receiver.md. -/

namespace Sys2Proof.Claims

open Sys2Proof Sys2Proof.Machine

/-! ### Frames: what stays the same -/

/-- The receiver's registers and every byte of its buffer are unchanged. -/
def SameReceiver (s t : State) : Prop :=
  t.rxState = s.rxState ∧ t.rxIndex = s.rxIndex ∧ ∀ a, Memory.read t.rxBuf a = Memory.read s.rxBuf a

/-- The refusal mark, the parameters and the environment's fields are unchanged. -/
def SameRest (s t : State) : Prop :=
  t.refusalMark = s.refusalMark ∧ t.setup = s.setup ∧ t.inputs = s.inputs ∧ t.offers = s.offers

/-- Everything an RX_BYTE step has no access to (10 R42) is unchanged: the accumulators, every configuration register,
the output stream, and what `SameRest` names. -/
def SameOutsideReceiver (s t : State) : Prop :=
  t.crcRx = s.crcRx ∧ t.crcTx = s.crcTx ∧ t.crcAcc = s.crcAcc ∧ t.cfg = s.cfg ∧ t.output = s.output ∧ SameRest s t

/-- Every configuration register whose number is not listed is unchanged. -/
def SameRegistersBut (written : List (Fin 22)) (s t : State) : Prop :=
  ∀ n, n ∉ written → t.cfg.read n = s.cfg.read n

/-- The step appends exactly these events, in some order: 42 R157 asks that no claim rest on the order. -/
def Emits (s t : State) (events : List Event) : Prop :=
  ∃ out, t.output = s.output ++ out ∧ out.Perm events

/-! ### Frames of the wire -/

/-- A 16-bit little-endian field, written as 30 R84 writes it. -/
def le16 (lo hi : Byte) : Half := hi.zeroExtend 16 <<< 8 ||| lo.zeroExtend 16

/-- The bytes 0 to 6 of a receive frame, which its CRC covers (30 R81). -/
def covered (id : Byte) (f : RxFields) : List Byte := [0x59, id, f.assist, f.flags, f.power, f.b5, f.b6]

/-- The trailer of the frame is the CRC of its bytes 0 to 6, low byte first (42 R153). -/
abbrev FrameValid (id : Byte) (f : RxFields) : Prop :=
  frameCrc machineParams (covered id f) = le16 f.crcLo f.crcHi

/-- The registers a message-ID has of its own (10 R33). -/
def ownRegisters (id : Byte) : List (Fin 22) :=
  match id.toNat with
  | 0 => [4]
  | 1 => [5]
  | 2 => [6, 7]
  | 3 => [8, 9, 10]
  | 4 => [11, 12]
  | 5 => [13, 14]
  | 6 => [15, 16]
  | 7 => [17, 18, 19]
  | 8 => [20, 21]
  | _ => []

/-- The event a message-ID has of its own (42 R157): `CUTOFF_STEP` for ID 0, `MAX_CURRENT` for ID 2. -/
def ownEvents (id b5 b6 : Byte) : List Event :=
  match id.toNat with
  | 0 => [.cutoffStep (machineParams.cutoffStep (le16 b5 b6))]
  | 2 => [.maxCurrent b6]
  | _ => []

/-- The ramp-up rate stored for a received byte: itself in `[4, 100]`, else the default (42 R167). -/
def storedRate (rampDefault b5 : Byte) : Byte :=
  if 4 ≤ b5.toNat ∧ b5.toNat ≤ 100 then b5 else rampDefault

/-- The values that bytes 5 and 6 of a message give the registers of its ID (42 R160 to R171), each register by its
number, zero-extended to 16 bits. -/
def ownValues (rampDefault id b5 b6 : Byte) : List (Fin 22 × Half) :=
  match id.toNat with
  | 0 => [(4, le16 b5 b6)]
  | 1 => [(5, le16 b5 b6)]
  | 2 => [(6, b5.zeroExtend 16), (7, b6.zeroExtend 16)]
  | 3 => [(8, b5.zeroExtend 16), (9, (b6.extractLsb' 0 1).zeroExtend 16), (10, (b6.extractLsb' 1 1).zeroExtend 16)]
  | 4 => [(11, b5.zeroExtend 16), (12, b6.zeroExtend 16)]
  | 5 => [(13, b5.zeroExtend 16), (14, b6.zeroExtend 16)]
  | 6 => [(15, b5.zeroExtend 16), (16, b6.zeroExtend 16)]
  | 7 => [(17, (storedRate rampDefault b5).zeroExtend 16),
      (18, BitVec.ofNat 16 (97656 / (storedRate rampDefault b5).toNat)), (19, b6.zeroExtend 16)]
  | 8 => [(20, b5.zeroExtend 16), (21, b6.zeroExtend 16)]
  | _ => []

/-- What a poll with these views leaves, when it commits in state `s` (42 R152 to R156, R172, R173): `crc_rx`, the
re-arm, and on a match the common fields, the ID's own registers from the field view (R158, R160 to R171), the events
and the handoff; on a mismatch nothing else. -/
def Committed (v : View) (s t : State) : Prop :=
  t.crcRx = ⟨frameCrc machineParams v.covered, true⟩ ∧ t.rxEnabled = true ∧ SameReceiver s t ∧
    t.crcTx = s.crcTx ∧ t.crcAcc = s.crcAcc ∧ SameRest s t ∧
    if frameCrc machineParams v.covered = le16 v.crcLo v.crcHi then
      t.ready = false ∧ t.cfg.assistLevel = v.assist ∧ t.cfg.lightsOn = v.flags.extractLsb' 0 1 ∧
        t.cfg.walkAssist = v.flags.extractLsb' 1 1 ∧ t.cfg.batteryMaxPowerDiv25 = v.power ∧
        Emits s t (.lights t.cfg.lightsOn :: .persist :: ownEvents v.id v.b5 v.b6) ∧
        (∀ n w, (n, w) ∈ ownValues s.setup.rampDefault v.id v.b5 v.b6 → t.cfg.read n = w) ∧
        SameRegistersBut ([0, 1, 2, 3] ++ ownRegisters v.id) s t
    else t.ready = s.ready ∧ t.cfg = s.cfg ∧ t.output = s.output

/-- What the poll of a frame leaves, when all its reads agree on that frame. The model reads a message row of the opcode
table as an instruction with this effect (log 14): the body of such a poll, without the test of `ready`. -/
def Handled (id : Byte) (f : RxFields) (s t : State) : Prop :=
  Committed ⟨covered id f, f.crcLo, f.crcHi, id, f.assist, f.flags, f.power, f.b5, f.b6⟩ s t

/-- Every byte of the buffer is the byte of the list at its offset, and the list is as long as a frame. -/
def Holds (s : State) (bytes : List Byte) : Prop :=
  bytes.length = rxFrameLen ∧ ∀ a, a < rxFrameLen → Memory.read s.rxBuf a = bytes[a]?

/-- Parameters with the reference CRC step (40 R112); the other two are any. -/
def referenceParams (cutoffStep : Half → Byte) (rxBufAtReset : Nat → Byte) : Params :=
  ⟨crc16StepRef, cutoffStep, rxBufAtReset⟩

/-- The CRC of a byte list under the reference step (40 R112, R114). -/
def refCrc (bytes : List Byte) : Half := bytes.foldl crc16StepRef 0xFFFF

/-- Nine bytes that pass the check under the reference step: bytes 7 and 8 are the CRC of bytes 0 to 6. -/
def RefValid (bytes : List Byte) : Prop :=
  bytes.length = 9 ∧ refCrc (bytes.take 7) = le16 (bytes.getD 7 0) (bytes.getD 8 0)

/-- The bytes 0 to 25 of the transmit frame, as 43 R190 writes them. -/
def txBytes (limitEnabled : Byte) (t : Telemetry) : List Byte :=
  [0x43, t.battVoltageAdc.extractLsb' 0 8, (t.battVoltageAdc.extractLsb' 8 2).zeroExtend 8 <<< 4,
    BitVec.ofNat 8 (t.battCurrentRaw.toNat * 826 / 1000), t.wheelSpeed.extractLsb' 0 8, t.wheelSpeed.extractLsb' 8 8,
    t.brake.zeroExtend 8, t.throttleAdcRaw, if limitEnabled = 0 then t.throttleProcessed else t.motorTemperature,
    t.torqueAdcRaw, t.torqueProcessed, t.pedalCadence, t.pedalPowerMapped, t.pwmDutyCycle,
    t.motorErps.extractLsb' 0 8, t.motorErps.extractLsb' 8 8, t.focAngle, t.systemState, t.tempLimitingValue,
    t.tickCounter.extractLsb' 0 8, t.tickCounter.extractLsb' 8 8, t.tickCounter.extractLsb' 16 8,
    t.pedalTorqueX10.extractLsb' 0 8, t.pedalTorqueX10.extractLsb' 8 8, t.pedalPowerX10.extractLsb' 0 8,
    t.pedalPowerX10.extractLsb' 8 8]

end Sys2Proof.Claims

open Sys2Proof Sys2Proof.Machine Sys2Proof.Claims

/-! ### Encodings -/

/-- Decoding the encoding of a well-formed instruction gives it back (30 R81, R82, R88, R96). -/
def Obligations.DecodeEncodeRoundTrip : Prop :=
  ∀ i : Instr, i.wellFormed = true → decode (encode i) = .ok i

/-- Of the 22 rows of the opcode table exactly one selects the encoding of a well-formed instruction, and it is a row
of its mnemonic (30 R83, R88, R89, R96). -/
def Obligations.OneTableRowSelectsEachEncoding : Prop :=
  ∀ i : Instr, i.wellFormed = true →
    (opcodeTable.filter fun r => r.selects (encode i).tableWord.1 (encode i).tableWord.2).map OpcodeRow.mnemonic =
      [i.mnemonic]

/-- Every command word, by its op and its data (30 R94, R96, R97, R98). -/
def Obligations.CommandWordsDecodeByTheMap : Prop :=
  ∀ (op : BitVec 3) (data : Byte),
    decodeCmd (cmdWord op data) =
      if op = 0 then .ok (.rxByte data)
      else if op = 4 then .ok (.crcUpdate data)
      else if 5 ≤ op.toNat then .error .reservedOp
      else if data ≠ 0 then .error .nonzeroData
      else if op = 1 then .ok .decodePoll
      else if op = 2 then .ok .sendTelemetry
      else .ok .crcInit

/-- A few words written out from the spec's encodings (30 R81, R82, R96) decode to what they stand for. -/
def Obligations.SpecWordsDecode : Prop :=
  decodeTableWord 16 0x059 = some (.rxByte 0x59) ∧ decodeTableWord 16 0x100 = some .decodePoll ∧
    decodeTableWord 16 0x4FF = some (.crcUpdate 0xFF) ∧ decodeTableWord 16 0x500 = none ∧
    decodeTableWord 72 0xC28C320A14000A0759 = some (.msg7 ⟨0x0A, 0x00, 0x14, 0x0A, 0x32, 0x8C, 0xC2⟩) ∧
    decodeTableWord 72 0x9820BBAA14030AFF59 = some (.msgOther 0xFF ⟨0x0A, 0x03, 0x14, 0xAA, 0xBB, 0x20, 0x98⟩) ∧
    decodeTableWord 72 0x43 = none

/-- Every payload of a transmit frame is one that SEND_TELEMETRY can build, whatever `cfg[20]` holds (43 R190, R192). -/
def Obligations.EveryPayloadCanBeSent : Prop :=
  ∀ (limitEnabled : Byte) (p : TxPayload), buildPayload limitEnabled (sampleFor p) = p

/-! ### The CRC engine -/

/-- CRC_INIT (40 R110): `crc_acc <- 0xFFFF` whatever it held, and nothing else changes. -/
def Obligations.CrcInitSeedsTheAccumulator : Prop :=
  decodeCmd 0x300 = .ok .crcInit ∧ ∀ s, exec .crcInit s = .next { s with crcAcc := ⟨0xFFFF, true⟩ }

/-- CRC_UPDATE b (40 R111) on an initialised accumulator folds one byte, and nothing else changes; under the reference
step, `0x59` takes `0xFFFF` to `0x7A7F`. On one never initialised since reset it faults, `FAULT_UNWRITTEN_CRC` (40 R113,
60 R237): the spec's decision D8 (log 6). -/
def Obligations.CrcUpdateFoldsOneByte : Prop :=
  (∀ b, decodeCmd (cmdWord 4 b) = .ok (.crcUpdate b)) ∧
    (∀ b s, s.crcAcc.initialised = true →
      exec (.crcUpdate b) s = .next { s with crcAcc := ⟨machineParams.crc16Step s.crcAcc.value b, true⟩ }) ∧
    (∀ b s, s.crcAcc.initialised = false → exec (.crcUpdate b) s = .fault .unwrittenCrc) ∧
    crc16StepRef 0xFFFF 0x59 = 0x7A7F

/-- FrameCRC (40 R114): from any state, CRC_INIT and then CRC_UPDATE of each byte in order leave `crc_acc` holding
`FrameCRC` of the bytes, and change nothing else. -/
def Obligations.CrcCommandsComputeFrameCrc : Prop :=
  frameCrc machineParams [] = 0xFFFF ∧
    ∀ (bytes : List Byte) (s : State),
      runInstrs (.crcInit :: bytes.map .crcUpdate) s =
        .next { s with crcAcc := ⟨bytes.foldl machineParams.crc16Step 0xFFFF, true⟩ } ∧
      frameCrc machineParams bytes = bytes.foldl machineParams.crc16Step 0xFFFF

/-- The table-driven form of the reference step (the spec marks it general knowledge; it says nothing of the machine's
own step, log 1). -/
def Obligations.ReferenceStepIsTableDriven : Prop :=
  ∀ (acc : Half) (b : Byte),
    crc16StepRef acc b = (acc >>> 8) ^^^ crc16StepRef 0 ((acc ^^^ b.zeroExtend 16).extractLsb' 0 8)

/-- Under the reference step, a byte list followed by its own CRC, low byte first, has CRC zero (the spec marks it
general knowledge; log 1). -/
def Obligations.ReferenceCrcResidueIsZero : Prop :=
  refCrc [0x31, 0x32, 0x33, 0x34, 0x35, 0x36, 0x37, 0x38, 0x39] = 0x4B37 ∧
    ∀ bytes : List Byte,
      refCrc (bytes ++ [(refCrc bytes).extractLsb' 0 8, (refCrc bytes).extractLsb' 8 8]) = 0

/-- Under the reference step, a frame of nine bytes that differs from a valid one in exactly one bit is not valid (the
spec checked it by evaluation on a sample; log 1). -/
def Obligations.ReferenceCrcDetectsSingleBitErrors : Prop :=
  ∀ bytes : List Byte, RefValid bytes → ∀ i, i < 9 → ∀ j, j < 8 →
    ¬ RefValid (bytes.set i (bytes.getD i 0 ^^^ (1 <<< j)))

/-! ### The frame receiver -/

/-- RX_BYTE (41 R130 to R135), case by case: dropped while disabled; in IDLE a start byte is stored at 0 and begins a
frame, any other byte is noise; in COLLECTING the byte is stored at the index, and the ninth completes the frame.
Everything an RX_BYTE step has no access to is unchanged, and so is every other byte of the buffer.
That a byte is dropped while the channel is disabled is the spec's decision D4 (log 18). -/
def Obligations.RxByteFollowsTheReceiver : Prop :=
  ∀ (b : Byte) (s : State),
    decodeCmd (cmdWord 0 b) = .ok (.rxByte b) ∧
    (s.rxEnabled = false → exec (.rxByte b) s = .next s) ∧
    (s.rxEnabled = true → s.rxState = .idle → b = 0x59 →
      ∃ t, exec (.rxByte b) s = .next t ∧ t.rxState = .collecting ∧ t.rxIndex = 1 ∧
        Memory.read t.rxBuf 0 = some b ∧ (∀ a, a ≠ 0 → Memory.read t.rxBuf a = Memory.read s.rxBuf a) ∧
        t.ready = s.ready ∧ t.rxEnabled = true ∧ SameOutsideReceiver s t) ∧
    (s.rxEnabled = true → s.rxState = .idle → b ≠ 0x59 →
      ∃ t, exec (.rxByte b) s = .next t ∧ t.rxState = .idle ∧ t.rxIndex = 0 ∧
        (∀ a, Memory.read t.rxBuf a = Memory.read s.rxBuf a) ∧
        t.ready = s.ready ∧ t.rxEnabled = true ∧ SameOutsideReceiver s t) ∧
    (s.rxEnabled = true → s.rxState = .collecting → s.rxIndex.toNat < 8 →
      ∃ t, exec (.rxByte b) s = .next t ∧ t.rxState = .collecting ∧ t.rxIndex.toNat = s.rxIndex.toNat + 1 ∧
        Memory.read t.rxBuf s.rxIndex.toNat = some b ∧
        (∀ a, a ≠ s.rxIndex.toNat → Memory.read t.rxBuf a = Memory.read s.rxBuf a) ∧
        t.ready = s.ready ∧ t.rxEnabled = true ∧ SameOutsideReceiver s t) ∧
    (s.rxEnabled = true → s.rxState = .collecting → s.rxIndex.toNat = 8 →
      ∃ t, exec (.rxByte b) s = .next t ∧ t.rxState = .idle ∧ t.rxIndex = 0 ∧
        Memory.read t.rxBuf 8 = some b ∧ (∀ a, a ≠ 8 → Memory.read t.rxBuf a = Memory.read s.rxBuf a) ∧
        t.ready = true ∧ t.rxEnabled = false ∧ SameOutsideReceiver s t)

/-- The model's own stop (log 13): a byte accepted in COLLECTING with an index of 9 to 15, which 10 R23 says is never
reached, would be stored outside the buffer and faults. -/
def Obligations.RxByteOutsideTheBufferFaults : Prop :=
  ∀ (b : Byte) (s : State), s.rxEnabled = true → s.rxState = .collecting → 9 ≤ s.rxIndex.toNat →
    exec (.rxByte b) s = .fault .rxOffset

/-- The framing property (41 R141): from IDLE with the channel enabled, noise and then a start byte and eight further
bytes, whatever they are, leave exactly those nine bytes in the buffer, with `ready` set and the channel disabled; no
proper part of them sets `ready`; and every byte after them is dropped. -/
def Obligations.NineBytesFromAStartMarkerMakeAFrame : Prop :=
  ∀ (s : State) (noise rest tail : List Byte), s.rxEnabled = true → s.rxState = .idle →
    (∀ b, b ∈ noise → b ≠ 0x59) → rest.length = 8 →
    (∃ t, runInstrs ((noise ++ 0x59 :: rest ++ tail).map .rxByte) s = .next t ∧ Holds t (0x59 :: rest) ∧
      t.ready = true ∧ t.rxEnabled = false ∧ t.rxState = .idle ∧ t.rxIndex = 0 ∧ SameOutsideReceiver s t) ∧
    ∀ n, n < noise.length + 9 →
      ∃ u, runInstrs (((noise ++ 0x59 :: rest).take n).map .rxByte) s = .next u ∧ u.ready = s.ready ∧
        u.rxEnabled = true

/-- There is no timeout (41 R139): no operation but RX_BYTE, and no poll inside which no byte arrives, moves the
receiver. -/
def Obligations.OnlyBytesMoveTheReceiver : Prop :=
  ∀ (i : Instr) (s t : State), exec i s = .next t → (∀ b, i ≠ .rxByte b) →
    (i = .decodePoll → s.setup.decodeView = .preemptible → s.inputs.arrivals = []) → SameReceiver s t

/-! ### The inbound decoder -/

/-- DECODE_POLL with `ready` 0 has no effect at all (20 R67, 42 R150). -/
def Obligations.PollWithoutAFrameDoesNothing : Prop :=
  ∀ s, setupWellFormed s.setup = true → s.ready = false → exec .decodePoll s = .next s

/-- DECODE_POLL with `ready` 1 (42 R152 to R156, R158, R160 to R173), under both values of `DECODE_VIEW` (R151, the
spec's decision D18): an ATOMIC poll commits in the state it opened in, with every byte as the buffer holds it; a
PREEMPTIBLE one commits in the state after the RX_BYTE steps of its interval, which leave `ready` 1, with the views its
inputs choose, and the ID's own registers get the bytes of the field view. That such a poll is one step, its arrivals
first and each read at the instant its inputs name, is the model's reading (log 9). -/
def Obligations.PollCommitsItsViews : Prop :=
  ∀ s, setupWellFormed s.setup = true → s.ready = true →
    (s.setup.decodeView = .atomic →
      ∃ t, exec .decodePoll s = .next t ∧ Committed (viewOf machineParams s.rxBuf) s t) ∧
    (s.setup.decodeView = .preemptible → ∀ instants u, runArrivals s.inputs.arrivals s = .ok (instants, u) →
      u.ready = true ∧
        ∃ t, exec .decodePoll s = .next t ∧ Committed (viewAt machineParams instants s.inputs) u t)

/-- What the reads of a PREEMPTIBLE poll may see (42 R151): at every instant a byte of the buffer is its value at the
opening or one that an RX_BYTE of the interval wrote there; and each byte so written is there at some instant.
The interval as one step is log 9. -/
def Obligations.PollReadsValuesOfItsInterval : Prop :=
  ∀ bytes s instants u, runArrivals bytes s = .ok (instants, u) → ∀ a,
    (∀ k, Memory.read (instants.getD k (instants.headD [])) a = Memory.read s.rxBuf a ∨
      ∃ before b after t t' ms, bytes = before ++ b :: after ∧ runArrivals before s = .ok (ms, t) ∧
        receiveByte b t = .ok t' ∧ t'.rxBuf = Memory.write t.rxBuf a b ∧
        Memory.read (instants.getD k (instants.headD [])) a = some b) ∧
    (∀ before b after t t' ms, bytes = before ++ b :: after → runArrivals before s = .ok (ms, t) →
      receiveByte b t = .ok t' → t'.rxBuf = Memory.write t.rxBuf a b →
      ∃ k, Memory.read (instants.getD k (instants.headD [])) a = some b)

/-- When a poll starts with the channel disabled, PREEMPTIBLE gives exactly the result of ATOMIC (42 R174). -/
def Obligations.DisabledChannelMakesPollsAtomic : Prop :=
  ∀ s : State, s.rxEnabled = false →
    ∀ t, exec .decodePoll { s with setup := { s.setup with decodeView := .atomic } } = .next t →
      exec .decodePoll { s with setup := { s.setup with decodeView := .preemptible } } =
        .next { t with setup := { t.setup with decodeView := .preemptible } }

/-- A poll runs the message that stands in the buffer: where every read agrees on a frame, DECODE_POLL is the
instruction the frame decodes to (30 R91, R102, 42 R158).
The message row as an instruction is log 14. -/
def Obligations.PollRunsTheBufferedMessage : Prop :=
  ∀ (s : State) (bytes : List Byte) (i : Instr), s.ready = true → Holds s bytes → decode (.rxf bytes) = .ok i →
    setupWellFormed s.setup = true →
    (s.setup.decodeView = .atomic ∨ s.rxEnabled = false ∨ s.inputs.arrivals = []) →
    exec .decodePoll s = exec i s

/-- A poll after a mismatching poll, with no byte accepted in between, changes nothing (42 R175). -/
def Obligations.RepeatedMismatchChangesNothing : Prop :=
  ∀ s t, setupWellFormed s.setup = true → s.ready = true →
    (s.setup.decodeView = .preemptible → s.inputs.arrivals = []) →
    exec .decodePoll s = .next t → t.ready = true → exec .decodePoll t = .next t

/-- No poll raises an exception (42 R176): in every state that meets the invariant, with a well-formed configuration,
DECODE_POLL answers a next state. -/
def Obligations.PollNeverStops : Prop :=
  ∀ s, s.Inv → setupWellFormed s.setup = true → ∃ t, exec .decodePoll s = .next t

/-- MSG0 (42 R160): the cutoff voltage is stored, and the step computed from it is pushed to the motor.
The row as an instruction is log 14. -/
def Obligations.MsgZeroStoresTheCutoff : Prop :=
  ∀ (f : RxFields) (s : State), decode (.rxf (rxfBytes 0 f)) = .ok (.msg0 f) ∧
    ∃ t, exec (.msg0 f) s = .next t ∧ Handled 0 f s t ∧
      (FrameValid 0 f → t.cfg.batteryLowVoltageCutoff = le16 f.b5 f.b6 ∧
        Event.cutoffStep (machineParams.cutoffStep t.cfg.batteryLowVoltageCutoff) ∈ t.output)

/-- MSG1 (42 R161): the wheel perimeter is stored.
The row as an instruction is log 14. -/
def Obligations.MsgOneStoresTheWheelPerimeter : Prop :=
  ∀ (f : RxFields) (s : State), decode (.rxf (rxfBytes 1 f)) = .ok (.msg1 f) ∧
    ∃ t, exec (.msg1 f) s = .next t ∧ Handled 1 f s t ∧ (FrameValid 1 f → t.cfg.wheelPerimeter = le16 f.b5 f.b6)

/-- MSG2 (42 R162): the wheel max speed and the battery max current are stored, and the current is pushed.
The row as an instruction is log 14. Pushing only the current is the spec's decision D16 (log 18). -/
def Obligations.MsgTwoStoresSpeedAndCurrent : Prop :=
  ∀ (f : RxFields) (s : State), decode (.rxf (rxfBytes 2 f)) = .ok (.msg2 f) ∧
    ∃ t, exec (.msg2 f) s = .next t ∧ Handled 2 f s t ∧
      (FrameValid 2 f → t.cfg.wheelMaxSpeed = f.b5 ∧ t.cfg.batteryMaxCurrent = f.b6 ∧
        Event.maxCurrent t.cfg.batteryMaxCurrent ∈ t.output)

/-- MSG3 (42 R163): the motor type and the two sub-flags are stored; bits 7:2 of byte 6 are ignored.
The row as an instruction is log 14. -/
def Obligations.MsgThreeStoresMotorTypeAndFlags : Prop :=
  ∀ (f : RxFields) (s : State), decode (.rxf (rxfBytes 3 f)) = .ok (.msg3 f) ∧
    ∃ t, exec (.msg3 f) s = .next t ∧ Handled 3 f s t ∧
      (FrameValid 3 f → t.cfg.motorType = f.b5 ∧ t.cfg.startupBoostEnabled = f.b6.extractLsb' 0 1 ∧
        t.cfg.startupBoostLimitMaxPower = f.b6.extractLsb' 1 1)

/-- MSG4 (42 R164): the startup boost assist level and duration are stored.
The row as an instruction is log 14. -/
def Obligations.MsgFourStoresBoostLevelAndDuration : Prop :=
  ∀ (f : RxFields) (s : State), decode (.rxf (rxfBytes 4 f)) = .ok (.msg4 f) ∧
    ∃ t, exec (.msg4 f) s = .next t ∧ Handled 4 f s t ∧
      (FrameValid 4 f → t.cfg.startupBoostAssistLevel = f.b5 ∧ t.cfg.startupBoostDuration = f.b6)

/-- MSG5 (42 R165): the startup boost fade time and the whole-byte feature flag are stored.
The row as an instruction is log 14. -/
def Obligations.MsgFiveStoresFadeTimeAndFeature : Prop :=
  ∀ (f : RxFields) (s : State), decode (.rxf (rxfBytes 5 f)) = .ok (.msg5 f) ∧
    ∃ t, exec (.msg5 f) s = .next t ∧ Handled 5 f s t ∧
      (FrameValid 5 f → t.cfg.startupBoostFadeTime = f.b5 ∧ t.cfg.startupBoostFeatureEnabled = f.b6)

/-- MSG6 (42 R166): both temperature limits are stored, in whatever order they are.
The row as an instruction is log 14. -/
def Obligations.MsgSixStoresTemperatureLimits : Prop :=
  ∀ (f : RxFields) (s : State), decode (.rxf (rxfBytes 6 f)) = .ok (.msg6 f) ∧
    ∃ t, exec (.msg6 f) s = .next t ∧ Handled 6 f s t ∧
      (FrameValid 6 f → t.cfg.motorTempLowerLimit = f.b5 ∧ t.cfg.motorTempUpperLimit = f.b6)

/-- MSG7 (42 R167 to R169): a rate in `[4, 100]` is stored as it is and any other is replaced by the default; the step
is 97656 div the rate stored; the cruise speed is stored raw.
The row as an instruction is log 14. Storing the cruise speed raw is the spec's decision D14 (log 18). -/
def Obligations.MsgSevenStoresRampAndCruise : Prop :=
  ∀ (f : RxFields) (s : State), setupWellFormed s.setup = true →
    decode (.rxf (rxfBytes 7 f)) = .ok (.msg7 f) ∧
    ∃ t, exec (.msg7 f) s = .next t ∧ Handled 7 f s t ∧
      (FrameValid 7 f →
        (4 ≤ f.b5.toNat ∧ f.b5.toNat ≤ 100 → t.cfg.rampUpRateX10 = f.b5) ∧
        (f.b5.toNat < 4 ∨ 100 < f.b5.toNat → t.cfg.rampUpRateX10 = s.setup.rampDefault) ∧
        t.cfg.rampUpStep.toNat = 97656 / t.cfg.rampUpRateX10.toNat ∧ t.cfg.targetCruiseSpeed = f.b6)

/-- MSG8 (42 R170): the temperature-limit flag and the assistance flag are stored as whole bytes.
The row as an instruction is log 14. -/
def Obligations.MsgEightStoresWholeByteFlags : Prop :=
  ∀ (f : RxFields) (s : State), decode (.rxf (rxfBytes 8 f)) = .ok (.msg8 f) ∧
    ∃ t, exec (.msg8 f) s = .next t ∧ Handled 8 f s t ∧
      (FrameValid 8 f → t.cfg.temperatureLimitEnabled = f.b5 ∧ t.cfg.assistWithoutPedalRotation = f.b6)

/-- MSG_OTHER (42 R171): a valid frame with an ID of 9 to 255 writes no ID-specific register, emits no ID-specific
event, and is otherwise handled as every valid frame.
The row as an instruction is log 14. -/
def Obligations.ReservedMessageAppliesCommonFieldsOnly : Prop :=
  ∀ (id : Byte) (f : RxFields) (s : State), 9 ≤ id.toNat →
    decode (.rxf (rxfBytes id f)) = .ok (.msgOther id f) ∧
    ∃ t, exec (.msgOther id f) s = .next t ∧ Handled id f s t ∧
      (FrameValid id f → Emits s t [.lights t.cfg.lightsOn, .persist] ∧ SameRegistersBut [0, 1, 2, 3] s t)

/-- The order of the events of one matching poll, which is the spec's own decision and no claim should rest on (42
R157, D17; log 17). The message row run as an instruction, the body of such a poll, is log 14. -/
def Obligations.MatchingFrameEventOrder : Prop :=
  ∀ (id : Byte) (f : RxFields) (s t : State), FrameValid id f → setupWellFormed s.setup = true →
    exec (message id f) s = .next t →
    t.output = s.output ++ .lights (f.flags.extractLsb' 0 1) :: (ownEvents id f.b5 f.b6 ++ [.persist])

/-- Two valid frames with different message-IDs, one after the other (42 R177): each writes the four common fields and,
besides them, only the registers of its own ID, so that a register of the first's alone keeps the value the first frame
gave it. Each frame is run as the instruction of its message row, the body of its poll (log 14). -/
def Obligations.ConsecutiveMessagesKeepTheirOwnFields : Prop :=
  ∀ (i j : Byte) (f g : RxFields) (s t u : State), i ≠ j → FrameValid i f → FrameValid j g →
    setupWellFormed s.setup = true → exec (message i f) s = .next t → exec (message j g) t = .next u →
    (t.cfg.assistLevel = f.assist ∧ t.cfg.lightsOn = f.flags.extractLsb' 0 1 ∧
      t.cfg.walkAssist = f.flags.extractLsb' 1 1 ∧ t.cfg.batteryMaxPowerDiv25 = f.power) ∧
    (u.cfg.assistLevel = g.assist ∧ u.cfg.lightsOn = g.flags.extractLsb' 0 1 ∧
      u.cfg.walkAssist = g.flags.extractLsb' 1 1 ∧ u.cfg.batteryMaxPowerDiv25 = g.power) ∧
    SameRegistersBut ([0, 1, 2, 3] ++ ownRegisters i) s t ∧ SameRegistersBut ([0, 1, 2, 3] ++ ownRegisters j) t u ∧
    (∀ n, n ∈ ownRegisters i → u.cfg.read n = t.cfg.read n) ∧
    (∀ n, n ∈ ownRegisters j → t.cfg.read n = s.cfg.read n)

/-- The ramp-up division (42 R168, 00 R9): with a default in range, every received byte gives a rate in `[4, 100]` and
a step in `[976, 24414]`, the truncated quotient, which 16 bits hold. -/
def Obligations.RampStepIsTheTruncatedQuotient : Prop :=
  ∀ rampDefault r : Byte, rampInRange rampDefault = true →
    rampInRange (rampRate rampDefault r) = true ∧
    (rampStep (rampRate rampDefault r)).toNat * (rampRate rampDefault r).toNat ≤ 97656 ∧
    97656 < ((rampStep (rampRate rampDefault r)).toNat + 1) * (rampRate rampDefault r).toNat ∧
    976 ≤ (rampStep (rampRate rampDefault r)).toNat ∧ (rampStep (rampRate rampDefault r)).toNat ≤ 24414

/-! ### The outbound encoder -/

/-- SEND_TELEMETRY (43 R190): it emits the 28 bytes of the frame built from the inputs and `cfg[20]`, the CRC of bytes
0 to 25 low byte first at the end; `crc_tx` holds that CRC; nothing else changes.
Byte 2 (the place of the voltage's high bits, D19), byte 3 (the exact 826/1000, D20), byte 6 (the unassigned bits sent
as 0, D21) and byte 8 (a whole-byte flag is true when not zero, D11, and `cfg[20]` is read at this step, D32) are the
spec's decisions (log 18). -/
def Obligations.SendEmitsTheTelemetryFrame : Prop :=
  decodeCmd 0x200 = .ok .sendTelemetry ∧
    ∀ s, ∃ crc : Half, crc = frameCrc machineParams (txBytes s.cfg.temperatureLimitEnabled s.inputs.telemetry) ∧
      exec .sendTelemetry s = .next { s with
        crcTx := ⟨crc, true⟩
        output := s.output ++
          (txBytes s.cfg.temperatureLimitEnabled s.inputs.telemetry ++
            [crc.extractLsb' 0 8, crc.extractLsb' 8 8]).map Event.tx }

/-- TELEMETRY (log 15, the model's reading of the row: 30 R103 says the block emits a transmit frame and never decodes
one): the frame's 26 bytes are emitted with the CRC over them injected, and nothing else but `crc_tx` changes. -/
def Obligations.TelemetryRowIsEmittedWithItsCrc : Prop :=
  ∀ (p : TxPayload) (lo hi : Byte) (s : State), ∃ t body crc, exec (.telemetry p lo hi) s = .next t ∧
    encode (.telemetry p lo hi) = .txf (body ++ [lo, hi]) ∧ body.length = 26 ∧ crc = frameCrc machineParams body ∧
    t = { s with crcTx := ⟨crc, true⟩, output := s.output ++ (body ++ [lowByte crc, highByte crc]).map Event.tx }

/-- Lossless packing (43 R210): the frame a send emits decodes, by the layout of 30 R82, to every input at its used
width, but for the scaled current and the input not selected for byte 8. -/
def Obligations.SentFrameDecodesToTheInputs : Prop :=
  ∀ s t, exec .sendTelemetry s = .next t → ∃ bytes p lo hi, t.output = s.output ++ bytes.map Event.tx ∧
    bytes.length = 28 ∧ decode (.txf bytes) = .ok (.telemetry p lo hi) ∧ half lo hi = t.crcTx.value ∧
    p.vbatHi ++ p.vbatLo = s.inputs.telemetry.battVoltageAdc.extractLsb' 0 10 ∧
    p.ibat = curScale s.inputs.telemetry.battCurrentRaw ∧ p.wheel = s.inputs.telemetry.wheelSpeed ∧
    p.brake = s.inputs.telemetry.brake ∧ p.thrRaw = s.inputs.telemetry.throttleAdcRaw ∧
    (s.cfg.temperatureLimitEnabled ≠ 0 → p.tempOrThr = s.inputs.telemetry.motorTemperature) ∧
    (s.cfg.temperatureLimitEnabled = 0 → p.tempOrThr = s.inputs.telemetry.throttleProcessed) ∧
    p.tqRaw = s.inputs.telemetry.torqueAdcRaw ∧ p.tq = s.inputs.telemetry.torqueProcessed ∧
    p.cadence = s.inputs.telemetry.pedalCadence ∧ p.ppm = s.inputs.telemetry.pedalPowerMapped ∧
    p.duty = s.inputs.telemetry.pwmDutyCycle ∧ p.erps = s.inputs.telemetry.motorErps ∧
    p.foc = s.inputs.telemetry.focAngle ∧ p.state = s.inputs.telemetry.systemState ∧
    p.tlim = s.inputs.telemetry.tempLimitingValue ∧ p.tick = s.inputs.telemetry.tickCounter ∧
    p.ptq = s.inputs.telemetry.pedalTorqueX10 ∧ p.ppw = s.inputs.telemetry.pedalPowerX10

/-- A byte before or after a send gives the same frame and the same state (43 R208). -/
def Obligations.SendCommutesWithRxByte : Prop :=
  ∀ (b : Byte) (s t u : State), exec (.rxByte b) s = .next t → exec .sendTelemetry s = .next u →
    ∃ v, exec .sendTelemetry t = .next v ∧ exec (.rxByte b) u = .next v

/-! ### Access rights -/

/-- The access rights of 10 R42 as frames: what each CMD operation leaves unchanged when it answers a next state. -/
def Obligations.OperationsWriteOnlyWhatTheyMay : Prop :=
  ∀ s t,
    (∀ b, exec (.rxByte b) s = .next t → SameOutsideReceiver s t) ∧
    (setupWellFormed s.setup = true → exec .decodePoll s = .next t →
      t.crcTx = s.crcTx ∧ t.crcAcc = s.crcAcc ∧ SameRest s t) ∧
    (exec .sendTelemetry s = .next t →
      SameReceiver s t ∧ t.ready = s.ready ∧ t.rxEnabled = s.rxEnabled ∧ t.crcRx = s.crcRx ∧
        t.crcAcc = s.crcAcc ∧ t.cfg = s.cfg ∧ SameRest s t) ∧
    (∀ i, (i = .crcInit ∨ ∃ b, i = .crcUpdate b) → exec i s = .next t →
      SameReceiver s t ∧ t.ready = s.ready ∧ t.rxEnabled = s.rxEnabled ∧ t.crcRx = s.crcRx ∧
        t.crcTx = s.crcTx ∧ t.cfg = s.cfg ∧ t.output = s.output ∧ SameRest s t)

/-! ### The machine -/

/-- Reset (70 R260), for any parameters and any `CONFIG_INIT`; the machine's own reset state is such a state, with a
well-formed configuration (which one is the model's choice, log 4 and 5, and is not said here). Every value but IDLE,
the empty frame and `CONFIG_INIT` is the spec's own decision: D5 and D6 (log 18), D7 (log 3), D8 (log 6). -/
def Obligations.ResetLeavesTheStatedValues : Prop :=
  (∀ (c : Setup) (init : CfgFile),
    (State.resetWith c init).rxState = .idle ∧ (State.resetWith c init).rxIndex = 0 ∧
    (∀ a, Memory.read (State.resetWith c init).rxBuf a = none) ∧ (State.resetWith c init).ready = false ∧
    (State.resetWith c init).rxEnabled = true ∧ (State.resetWith c init).crcRx.initialised = false ∧
    (State.resetWith c init).crcTx.initialised = false ∧ (State.resetWith c init).crcAcc.initialised = false ∧
    (State.resetWith c init).cfg = init ∧ (State.resetWith c init).output = [] ∧
    (State.resetWith c init).refusalMark = none) ∧
  ∃ c init, setupWellFormed c = true ∧ State.reset = State.resetWith c init

/-- The invariant holds at reset. -/
def Obligations.InvariantHoldsAtReset : Prop :=
  ∀ (c : Setup) (init : CfgFile), (State.resetWith c init).Inv

/-- Every step keeps the invariant (10 R23, R24, R27, 20 R72): the receiver's index is legal, the buffer is canonical
with byte 0 only ever the start marker, whatever a poll or a collecting receiver relies on has been written, and a
disabled channel means a ready frame and an IDLE receiver. -/
def Obligations.StepKeepsTheInvariant : Prop :=
  ∀ s t, s.Inv → step s = .next t → t.Inv

/-- The ramp-up pair (10 R33, R37): once the rate is valid and the step belongs to it, every step keeps both. -/
def Obligations.StepKeepsTheRampPair : Prop :=
  ∀ s t, s.RampInv → step s = .next t → t.RampInv

/-- A well-formed configuration driven only by RX_BYTE, DECODE_POLL and SEND_TELEMETRY meets no fault and no refusal
(60 R237), and stays so. -/
def Obligations.CoreOperationsNeverStop : Prop :=
  ∀ s, s.Inv → s.Driven → ∃ t, step s = .next t ∧ t.Inv ∧ t.Driven

/-- The output stream is only ever appended to (10 R45). -/
def Obligations.OutputIsOnlyAppendedTo : Prop :=
  ∀ s t, step s = .next t → ∃ events, t.output = s.output ++ events

/-- The configuration registers have one writer (10 R31, 42 R154): a step that changes any of them is a DECODE_POLL
that found `ready` 1, left it 0, and emitted `PERSIST`. -/
def Obligations.OnlyAMatchingPollWritesConfiguration : Prop :=
  ∀ s t, step s = .next t → t.cfg ≠ s.cfg →
    ∃ o rest, s.offers = o :: rest ∧ o.word = 0x100 ∧ s.ready = true ∧ t.ready = false ∧
      ∃ events, t.output = s.output ++ events ∧ Event.persist ∈ events

/-- While the channel is disabled no step changes the buffer or moves the receiver (20 R72). -/
def Obligations.DisabledChannelKeepsTheBuffer : Prop :=
  ∀ s t, s.rxEnabled = false → step s = .next t → SameReceiver s t

/-- `ready` and `rx_enabled` are both 1 only after a DECODE_POLL that found `ready` 1 and did not clear it (10 R28). -/
def Obligations.FlaggedAndArmedComesFromAMismatch : Prop :=
  ∀ s t, step s = .next t → t.ready = true → t.rxEnabled = true → ¬ (s.ready = true ∧ s.rxEnabled = true) →
    ∃ o rest, s.offers = o :: rest ∧ o.word = 0x100 ∧ s.ready = true ∧ s.rxEnabled = false ∧
      t.cfg = s.cfg ∧ t.output = s.output

/-- A step runs the decoded instruction (20 R70, 30 R93): with no refusal so far and a well-formed configuration, the
word offered next, if it decodes to an instruction, is executed in the state that has accepted the offer: its inputs
stand, and the offers after it remain.
Offers and their inputs are log 7 and 8. -/
def Obligations.StepRunsTheOfferedInstruction : Prop :=
  ∀ (s : State) (o : Offer) (rest : List Offer) (i : Instr), s.refusalMark = none →
    setupWellFormed s.setup = true → s.offers = o :: rest → decode (.cmd o.word) = .ok i →
    i.wellFormed = true ∧ step s = exec i { s with inputs := o.inputs, offers := rest }

/-- A refused command word (30 R97, R98, R104, the spec's decision D2): the step sets the refusal mark to the reason and
changes no other state. That this is a next state (log 11), and that the refused word stays on the offers (log 12), is
the model's reading. -/
def Obligations.RefusedWordSetsTheMarkOnly : Prop :=
  ∀ (s : State) (o : Offer) (rest : List Offer), s.refusalMark = none → setupWellFormed s.setup = true →
    s.offers = o :: rest →
    (5 ≤ (o.word.extractLsb' 8 3).toNat → step s = .next { s with refusalMark := some .reservedOp }) ∧
    (1 ≤ (o.word.extractLsb' 8 3).toNat ∧ (o.word.extractLsb' 8 3).toNat ≤ 3 ∧ o.word.extractLsb' 0 8 ≠ 0 →
      step s = .next { s with refusalMark := some .nonzeroData })

/-- The model's reading of 30 R104 and of silence (log 7, 11, 12): a marked state is given no further meaning; before
any operation a configuration that breaks 00 R9 sets the mark `BAD_CONFIG` and changes nothing else; with nothing
offered the block waits. -/
def Obligations.MarkConfigurationAndSilenceComeFirst : Prop :=
  ∀ s : State, (∀ r, s.refusalMark = some r → step s = .refused r) ∧
    (s.refusalMark = none → s.setup.rampDefault.toNat < 4 ∨ 100 < s.setup.rampDefault.toNat →
      step s = .next { s with refusalMark := some .badConfig }) ∧
    (s.refusalMark = none → setupWellFormed s.setup = true → s.offers = [] → step s = .next s)

/-- Placing an encoded instruction makes the very next step run it (log 7): the operation it selects does in its state
exactly what the instruction does there. For a receive frame that operation is a poll, and the instruction is the
message row as log 14 reads it (30 R88, 42 R150); for a transmit frame it is a send, and the instruction is TELEMETRY as
log 15 reads it (43 R190). -/
def Obligations.PlacedInstructionRunsNext : Prop :=
  ∀ (s : State) (c : Code) (i : Instr), s.refusalMark = none → setupWellFormed s.setup = true →
    decode c = .ok i → ∃ j t, nextOp (s.place c) = .run j t ∧ exec j t = exec i t

/-! ### Start markers, and what the receiver does not look at -/

/-- The start marker tells the two formats apart (30 R90): `0x59` begins every receive frame and `0x43` every transmit
frame that decodes; in IDLE the receiver takes up no byte but `0x59`, so `0x43` is noise; in COLLECTING both are data,
stored at the index (41 R137), and a second `0x59` right after the first is byte 1 of the one frame they are in. -/
def Obligations.StartMarkerTellsTheFormatsApart : Prop :=
  (∀ bytes i, decode (.rxf bytes) = .ok i → bytes.head? = some 0x59) ∧
    (∀ bytes i, decode (.txf bytes) = .ok i → bytes.head? = some 0x43) ∧
    (∀ (b : Byte) (s : State), s.rxEnabled = true → s.rxState = .idle →
      ∃ t, exec (.rxByte b) s = .next t ∧ (t.rxState = .collecting ↔ b = 0x59) ∧
        (b = 0x43 → t.rxIndex = 0 ∧ ∀ a, Memory.read t.rxBuf a = Memory.read s.rxBuf a)) ∧
    (∀ (b : Byte) (s : State), b = 0x43 ∨ b = 0x59 → s.rxEnabled = true → s.rxState = .collecting →
      s.rxIndex.toNat < 9 →
      ∃ t, exec (.rxByte b) s = .next t ∧ Memory.read t.rxBuf s.rxIndex.toNat = some b ∧
        (∀ a, a ≠ s.rxIndex.toNat → Memory.read t.rxBuf a = Memory.read s.rxBuf a) ∧
        if s.rxIndex = 8 then t.rxState = .idle ∧ t.rxIndex = 0 ∧ t.ready = true ∧ t.rxEnabled = false
        else t.rxState = .collecting ∧ t.rxIndex.toNat = s.rxIndex.toNat + 1 ∧ t.ready = s.ready ∧ t.rxEnabled = true) ∧
    ∀ (rest : List Byte) (s : State), s.rxEnabled = true → s.rxState = .idle → rest.length = 7 →
      ∃ t, runInstrs ((0x59 :: 0x59 :: rest).map .rxByte) s = .next t ∧ Holds t (0x59 :: 0x59 :: rest) ∧
        t.ready = true ∧ t.rxState = .idle ∧ t.rxIndex = 0

/-- RX_BYTE only stores bytes and flips state (41 R136). It looks at nothing but the receiver's control state and
`rx_enabled`: two states that agree on those, whatever their `ready`, their buffers (a stored message-ID among them) and
all else, take the same byte in the same way. In COLLECTING it does not look at the byte either, so not at a message-ID
that arrives. It computes no CRC, writes no configuration register and emits no event. -/
def Obligations.RxByteLooksAtNothingElse : Prop :=
  (∀ (b : Byte) (s s' t : State), s'.rxState = s.rxState → s'.rxIndex = s.rxIndex → s'.rxEnabled = s.rxEnabled →
    exec (.rxByte b) s = .next t →
    SameOutsideReceiver s t ∧ ∃ t', exec (.rxByte b) s' = .next t' ∧ SameOutsideReceiver s' t' ∧
      t'.rxState = t.rxState ∧ t'.rxIndex = t.rxIndex ∧ t'.rxEnabled = t.rxEnabled ∧
      ((t.ready = true ∧ t'.ready = true) ∨ (t.ready = s.ready ∧ t'.ready = s'.ready)) ∧
      ∀ a, (Memory.read t.rxBuf a = some b ∧ Memory.read t'.rxBuf a = some b) ∨
        (Memory.read t.rxBuf a = Memory.read s.rxBuf a ∧ Memory.read t'.rxBuf a = Memory.read s'.rxBuf a)) ∧
    ∀ (b c : Byte) (s t : State), s.rxState = .collecting → exec (.rxByte b) s = .next t →
      ∃ u, exec (.rxByte c) s = .next u ∧ u.rxState = t.rxState ∧ u.rxIndex = t.rxIndex ∧ u.ready = t.ready ∧
        u.rxEnabled = t.rxEnabled
end

