-- ==== Sys2Proof/Laws/State.lean ====
section
/-! SUPPORT. The fields of an updated state: one lemma per field per update, each true by definition. -/

namespace Sys2Proof.Machine

variable (s : State)

/-! ### `raiseReady` -/

@[simp] theorem State.raiseReady_rxState : (s.raiseReady).rxState = s.rxState := rfl
@[simp] theorem State.raiseReady_rxIndex : (s.raiseReady).rxIndex = s.rxIndex := rfl
@[simp] theorem State.raiseReady_rxBuf : (s.raiseReady).rxBuf = s.rxBuf := rfl
@[simp] theorem State.raiseReady_ready : (s.raiseReady).ready = true := rfl
@[simp] theorem State.raiseReady_rxEnabled : (s.raiseReady).rxEnabled = s.rxEnabled := rfl
@[simp] theorem State.raiseReady_crcRx : (s.raiseReady).crcRx = s.crcRx := rfl
@[simp] theorem State.raiseReady_crcTx : (s.raiseReady).crcTx = s.crcTx := rfl
@[simp] theorem State.raiseReady_crcAcc : (s.raiseReady).crcAcc = s.crcAcc := rfl
@[simp] theorem State.raiseReady_cfg : (s.raiseReady).cfg = s.cfg := rfl
@[simp] theorem State.raiseReady_output : (s.raiseReady).output = s.output := rfl
@[simp] theorem State.raiseReady_refusalMark : (s.raiseReady).refusalMark = s.refusalMark := rfl
@[simp] theorem State.raiseReady_setup : (s.raiseReady).setup = s.setup := rfl
@[simp] theorem State.raiseReady_inputs : (s.raiseReady).inputs = s.inputs := rfl
@[simp] theorem State.raiseReady_offers : (s.raiseReady).offers = s.offers := rfl

/-! ### `clearReady` -/

@[simp] theorem State.clearReady_rxState : (s.clearReady).rxState = s.rxState := rfl
@[simp] theorem State.clearReady_rxIndex : (s.clearReady).rxIndex = s.rxIndex := rfl
@[simp] theorem State.clearReady_rxBuf : (s.clearReady).rxBuf = s.rxBuf := rfl
@[simp] theorem State.clearReady_ready : (s.clearReady).ready = false := rfl
@[simp] theorem State.clearReady_rxEnabled : (s.clearReady).rxEnabled = s.rxEnabled := rfl
@[simp] theorem State.clearReady_crcRx : (s.clearReady).crcRx = s.crcRx := rfl
@[simp] theorem State.clearReady_crcTx : (s.clearReady).crcTx = s.crcTx := rfl
@[simp] theorem State.clearReady_crcAcc : (s.clearReady).crcAcc = s.crcAcc := rfl
@[simp] theorem State.clearReady_cfg : (s.clearReady).cfg = s.cfg := rfl
@[simp] theorem State.clearReady_output : (s.clearReady).output = s.output := rfl
@[simp] theorem State.clearReady_refusalMark : (s.clearReady).refusalMark = s.refusalMark := rfl
@[simp] theorem State.clearReady_setup : (s.clearReady).setup = s.setup := rfl
@[simp] theorem State.clearReady_inputs : (s.clearReady).inputs = s.inputs := rfl
@[simp] theorem State.clearReady_offers : (s.clearReady).offers = s.offers := rfl

/-! ### `armReceiver` -/

@[simp] theorem State.armReceiver_rxState : (s.armReceiver).rxState = s.rxState := rfl
@[simp] theorem State.armReceiver_rxIndex : (s.armReceiver).rxIndex = s.rxIndex := rfl
@[simp] theorem State.armReceiver_rxBuf : (s.armReceiver).rxBuf = s.rxBuf := rfl
@[simp] theorem State.armReceiver_ready : (s.armReceiver).ready = s.ready := rfl
@[simp] theorem State.armReceiver_rxEnabled : (s.armReceiver).rxEnabled = true := rfl
@[simp] theorem State.armReceiver_crcRx : (s.armReceiver).crcRx = s.crcRx := rfl
@[simp] theorem State.armReceiver_crcTx : (s.armReceiver).crcTx = s.crcTx := rfl
@[simp] theorem State.armReceiver_crcAcc : (s.armReceiver).crcAcc = s.crcAcc := rfl
@[simp] theorem State.armReceiver_cfg : (s.armReceiver).cfg = s.cfg := rfl
@[simp] theorem State.armReceiver_output : (s.armReceiver).output = s.output := rfl
@[simp] theorem State.armReceiver_refusalMark : (s.armReceiver).refusalMark = s.refusalMark := rfl
@[simp] theorem State.armReceiver_setup : (s.armReceiver).setup = s.setup := rfl
@[simp] theorem State.armReceiver_inputs : (s.armReceiver).inputs = s.inputs := rfl
@[simp] theorem State.armReceiver_offers : (s.armReceiver).offers = s.offers := rfl

/-! ### `disarmReceiver` -/

@[simp] theorem State.disarmReceiver_rxState : (s.disarmReceiver).rxState = s.rxState := rfl
@[simp] theorem State.disarmReceiver_rxIndex : (s.disarmReceiver).rxIndex = s.rxIndex := rfl
@[simp] theorem State.disarmReceiver_rxBuf : (s.disarmReceiver).rxBuf = s.rxBuf := rfl
@[simp] theorem State.disarmReceiver_ready : (s.disarmReceiver).ready = s.ready := rfl
@[simp] theorem State.disarmReceiver_rxEnabled : (s.disarmReceiver).rxEnabled = false := rfl
@[simp] theorem State.disarmReceiver_crcRx : (s.disarmReceiver).crcRx = s.crcRx := rfl
@[simp] theorem State.disarmReceiver_crcTx : (s.disarmReceiver).crcTx = s.crcTx := rfl
@[simp] theorem State.disarmReceiver_crcAcc : (s.disarmReceiver).crcAcc = s.crcAcc := rfl
@[simp] theorem State.disarmReceiver_cfg : (s.disarmReceiver).cfg = s.cfg := rfl
@[simp] theorem State.disarmReceiver_output : (s.disarmReceiver).output = s.output := rfl
@[simp] theorem State.disarmReceiver_refusalMark : (s.disarmReceiver).refusalMark = s.refusalMark := rfl
@[simp] theorem State.disarmReceiver_setup : (s.disarmReceiver).setup = s.setup := rfl
@[simp] theorem State.disarmReceiver_inputs : (s.disarmReceiver).inputs = s.inputs := rfl
@[simp] theorem State.disarmReceiver_offers : (s.disarmReceiver).offers = s.offers := rfl

/-! ### `setReceiver` -/

@[simp] theorem State.setReceiver_rxState (st : RxState) (i : BitVec 4) : (s.setReceiver st i).rxState = st := rfl
@[simp] theorem State.setReceiver_rxIndex (st : RxState) (i : BitVec 4) : (s.setReceiver st i).rxIndex = i := rfl
@[simp] theorem State.setReceiver_rxBuf (st : RxState) (i : BitVec 4) : (s.setReceiver st i).rxBuf = s.rxBuf := rfl
@[simp] theorem State.setReceiver_ready (st : RxState) (i : BitVec 4) : (s.setReceiver st i).ready = s.ready := rfl
@[simp] theorem State.setReceiver_rxEnabled (st : RxState) (i : BitVec 4) : (s.setReceiver st i).rxEnabled = s.rxEnabled := rfl
@[simp] theorem State.setReceiver_crcRx (st : RxState) (i : BitVec 4) : (s.setReceiver st i).crcRx = s.crcRx := rfl
@[simp] theorem State.setReceiver_crcTx (st : RxState) (i : BitVec 4) : (s.setReceiver st i).crcTx = s.crcTx := rfl
@[simp] theorem State.setReceiver_crcAcc (st : RxState) (i : BitVec 4) : (s.setReceiver st i).crcAcc = s.crcAcc := rfl
@[simp] theorem State.setReceiver_cfg (st : RxState) (i : BitVec 4) : (s.setReceiver st i).cfg = s.cfg := rfl
@[simp] theorem State.setReceiver_output (st : RxState) (i : BitVec 4) : (s.setReceiver st i).output = s.output := rfl
@[simp] theorem State.setReceiver_refusalMark (st : RxState) (i : BitVec 4) : (s.setReceiver st i).refusalMark = s.refusalMark := rfl
@[simp] theorem State.setReceiver_setup (st : RxState) (i : BitVec 4) : (s.setReceiver st i).setup = s.setup := rfl
@[simp] theorem State.setReceiver_inputs (st : RxState) (i : BitVec 4) : (s.setReceiver st i).inputs = s.inputs := rfl
@[simp] theorem State.setReceiver_offers (st : RxState) (i : BitVec 4) : (s.setReceiver st i).offers = s.offers := rfl

/-! ### `setCrcRx` -/

@[simp] theorem State.setCrcRx_rxState (v : Half) : (s.setCrcRx v).rxState = s.rxState := rfl
@[simp] theorem State.setCrcRx_rxIndex (v : Half) : (s.setCrcRx v).rxIndex = s.rxIndex := rfl
@[simp] theorem State.setCrcRx_rxBuf (v : Half) : (s.setCrcRx v).rxBuf = s.rxBuf := rfl
@[simp] theorem State.setCrcRx_ready (v : Half) : (s.setCrcRx v).ready = s.ready := rfl
@[simp] theorem State.setCrcRx_rxEnabled (v : Half) : (s.setCrcRx v).rxEnabled = s.rxEnabled := rfl
@[simp] theorem State.setCrcRx_crcRx (v : Half) : (s.setCrcRx v).crcRx = ⟨v, true⟩ := rfl
@[simp] theorem State.setCrcRx_crcTx (v : Half) : (s.setCrcRx v).crcTx = s.crcTx := rfl
@[simp] theorem State.setCrcRx_crcAcc (v : Half) : (s.setCrcRx v).crcAcc = s.crcAcc := rfl
@[simp] theorem State.setCrcRx_cfg (v : Half) : (s.setCrcRx v).cfg = s.cfg := rfl
@[simp] theorem State.setCrcRx_output (v : Half) : (s.setCrcRx v).output = s.output := rfl
@[simp] theorem State.setCrcRx_refusalMark (v : Half) : (s.setCrcRx v).refusalMark = s.refusalMark := rfl
@[simp] theorem State.setCrcRx_setup (v : Half) : (s.setCrcRx v).setup = s.setup := rfl
@[simp] theorem State.setCrcRx_inputs (v : Half) : (s.setCrcRx v).inputs = s.inputs := rfl
@[simp] theorem State.setCrcRx_offers (v : Half) : (s.setCrcRx v).offers = s.offers := rfl

/-! ### `setCrcTx` -/

@[simp] theorem State.setCrcTx_rxState (v : Half) : (s.setCrcTx v).rxState = s.rxState := rfl
@[simp] theorem State.setCrcTx_rxIndex (v : Half) : (s.setCrcTx v).rxIndex = s.rxIndex := rfl
@[simp] theorem State.setCrcTx_rxBuf (v : Half) : (s.setCrcTx v).rxBuf = s.rxBuf := rfl
@[simp] theorem State.setCrcTx_ready (v : Half) : (s.setCrcTx v).ready = s.ready := rfl
@[simp] theorem State.setCrcTx_rxEnabled (v : Half) : (s.setCrcTx v).rxEnabled = s.rxEnabled := rfl
@[simp] theorem State.setCrcTx_crcRx (v : Half) : (s.setCrcTx v).crcRx = s.crcRx := rfl
@[simp] theorem State.setCrcTx_crcTx (v : Half) : (s.setCrcTx v).crcTx = ⟨v, true⟩ := rfl
@[simp] theorem State.setCrcTx_crcAcc (v : Half) : (s.setCrcTx v).crcAcc = s.crcAcc := rfl
@[simp] theorem State.setCrcTx_cfg (v : Half) : (s.setCrcTx v).cfg = s.cfg := rfl
@[simp] theorem State.setCrcTx_output (v : Half) : (s.setCrcTx v).output = s.output := rfl
@[simp] theorem State.setCrcTx_refusalMark (v : Half) : (s.setCrcTx v).refusalMark = s.refusalMark := rfl
@[simp] theorem State.setCrcTx_setup (v : Half) : (s.setCrcTx v).setup = s.setup := rfl
@[simp] theorem State.setCrcTx_inputs (v : Half) : (s.setCrcTx v).inputs = s.inputs := rfl
@[simp] theorem State.setCrcTx_offers (v : Half) : (s.setCrcTx v).offers = s.offers := rfl

/-! ### `setCrcAcc` -/

@[simp] theorem State.setCrcAcc_rxState (v : Half) : (s.setCrcAcc v).rxState = s.rxState := rfl
@[simp] theorem State.setCrcAcc_rxIndex (v : Half) : (s.setCrcAcc v).rxIndex = s.rxIndex := rfl
@[simp] theorem State.setCrcAcc_rxBuf (v : Half) : (s.setCrcAcc v).rxBuf = s.rxBuf := rfl
@[simp] theorem State.setCrcAcc_ready (v : Half) : (s.setCrcAcc v).ready = s.ready := rfl
@[simp] theorem State.setCrcAcc_rxEnabled (v : Half) : (s.setCrcAcc v).rxEnabled = s.rxEnabled := rfl
@[simp] theorem State.setCrcAcc_crcRx (v : Half) : (s.setCrcAcc v).crcRx = s.crcRx := rfl
@[simp] theorem State.setCrcAcc_crcTx (v : Half) : (s.setCrcAcc v).crcTx = s.crcTx := rfl
@[simp] theorem State.setCrcAcc_crcAcc (v : Half) : (s.setCrcAcc v).crcAcc = ⟨v, true⟩ := rfl
@[simp] theorem State.setCrcAcc_cfg (v : Half) : (s.setCrcAcc v).cfg = s.cfg := rfl
@[simp] theorem State.setCrcAcc_output (v : Half) : (s.setCrcAcc v).output = s.output := rfl
@[simp] theorem State.setCrcAcc_refusalMark (v : Half) : (s.setCrcAcc v).refusalMark = s.refusalMark := rfl
@[simp] theorem State.setCrcAcc_setup (v : Half) : (s.setCrcAcc v).setup = s.setup := rfl
@[simp] theorem State.setCrcAcc_inputs (v : Half) : (s.setCrcAcc v).inputs = s.inputs := rfl
@[simp] theorem State.setCrcAcc_offers (v : Half) : (s.setCrcAcc v).offers = s.offers := rfl

/-! ### `setCfg` -/

@[simp] theorem State.setCfg_rxState (c : CfgFile) : (s.setCfg c).rxState = s.rxState := rfl
@[simp] theorem State.setCfg_rxIndex (c : CfgFile) : (s.setCfg c).rxIndex = s.rxIndex := rfl
@[simp] theorem State.setCfg_rxBuf (c : CfgFile) : (s.setCfg c).rxBuf = s.rxBuf := rfl
@[simp] theorem State.setCfg_ready (c : CfgFile) : (s.setCfg c).ready = s.ready := rfl
@[simp] theorem State.setCfg_rxEnabled (c : CfgFile) : (s.setCfg c).rxEnabled = s.rxEnabled := rfl
@[simp] theorem State.setCfg_crcRx (c : CfgFile) : (s.setCfg c).crcRx = s.crcRx := rfl
@[simp] theorem State.setCfg_crcTx (c : CfgFile) : (s.setCfg c).crcTx = s.crcTx := rfl
@[simp] theorem State.setCfg_crcAcc (c : CfgFile) : (s.setCfg c).crcAcc = s.crcAcc := rfl
@[simp] theorem State.setCfg_cfg (c : CfgFile) : (s.setCfg c).cfg = c := rfl
@[simp] theorem State.setCfg_output (c : CfgFile) : (s.setCfg c).output = s.output := rfl
@[simp] theorem State.setCfg_refusalMark (c : CfgFile) : (s.setCfg c).refusalMark = s.refusalMark := rfl
@[simp] theorem State.setCfg_setup (c : CfgFile) : (s.setCfg c).setup = s.setup := rfl
@[simp] theorem State.setCfg_inputs (c : CfgFile) : (s.setCfg c).inputs = s.inputs := rfl
@[simp] theorem State.setCfg_offers (c : CfgFile) : (s.setCfg c).offers = s.offers := rfl

/-! ### `emit` -/

@[simp] theorem State.emit_rxState (e : Event) : (s.emit e).rxState = s.rxState := rfl
@[simp] theorem State.emit_rxIndex (e : Event) : (s.emit e).rxIndex = s.rxIndex := rfl
@[simp] theorem State.emit_rxBuf (e : Event) : (s.emit e).rxBuf = s.rxBuf := rfl
@[simp] theorem State.emit_ready (e : Event) : (s.emit e).ready = s.ready := rfl
@[simp] theorem State.emit_rxEnabled (e : Event) : (s.emit e).rxEnabled = s.rxEnabled := rfl
@[simp] theorem State.emit_crcRx (e : Event) : (s.emit e).crcRx = s.crcRx := rfl
@[simp] theorem State.emit_crcTx (e : Event) : (s.emit e).crcTx = s.crcTx := rfl
@[simp] theorem State.emit_crcAcc (e : Event) : (s.emit e).crcAcc = s.crcAcc := rfl
@[simp] theorem State.emit_cfg (e : Event) : (s.emit e).cfg = s.cfg := rfl
@[simp] theorem State.emit_output (e : Event) : (s.emit e).output = s.output ++ [e] := rfl
@[simp] theorem State.emit_refusalMark (e : Event) : (s.emit e).refusalMark = s.refusalMark := rfl
@[simp] theorem State.emit_setup (e : Event) : (s.emit e).setup = s.setup := rfl
@[simp] theorem State.emit_inputs (e : Event) : (s.emit e).inputs = s.inputs := rfl
@[simp] theorem State.emit_offers (e : Event) : (s.emit e).offers = s.offers := rfl

/-! ### `emitAll` -/

@[simp] theorem State.emitAll_rxState (es : List Event) : (s.emitAll es).rxState = s.rxState := rfl
@[simp] theorem State.emitAll_rxIndex (es : List Event) : (s.emitAll es).rxIndex = s.rxIndex := rfl
@[simp] theorem State.emitAll_rxBuf (es : List Event) : (s.emitAll es).rxBuf = s.rxBuf := rfl
@[simp] theorem State.emitAll_ready (es : List Event) : (s.emitAll es).ready = s.ready := rfl
@[simp] theorem State.emitAll_rxEnabled (es : List Event) : (s.emitAll es).rxEnabled = s.rxEnabled := rfl
@[simp] theorem State.emitAll_crcRx (es : List Event) : (s.emitAll es).crcRx = s.crcRx := rfl
@[simp] theorem State.emitAll_crcTx (es : List Event) : (s.emitAll es).crcTx = s.crcTx := rfl
@[simp] theorem State.emitAll_crcAcc (es : List Event) : (s.emitAll es).crcAcc = s.crcAcc := rfl
@[simp] theorem State.emitAll_cfg (es : List Event) : (s.emitAll es).cfg = s.cfg := rfl
@[simp] theorem State.emitAll_output (es : List Event) : (s.emitAll es).output = s.output ++ es := rfl
@[simp] theorem State.emitAll_refusalMark (es : List Event) : (s.emitAll es).refusalMark = s.refusalMark := rfl
@[simp] theorem State.emitAll_setup (es : List Event) : (s.emitAll es).setup = s.setup := rfl
@[simp] theorem State.emitAll_inputs (es : List Event) : (s.emitAll es).inputs = s.inputs := rfl
@[simp] theorem State.emitAll_offers (es : List Event) : (s.emitAll es).offers = s.offers := rfl

/-! ### `mark` -/

@[simp] theorem State.mark_rxState (r : Refusal) : (s.mark r).rxState = s.rxState := rfl
@[simp] theorem State.mark_rxIndex (r : Refusal) : (s.mark r).rxIndex = s.rxIndex := rfl
@[simp] theorem State.mark_rxBuf (r : Refusal) : (s.mark r).rxBuf = s.rxBuf := rfl
@[simp] theorem State.mark_ready (r : Refusal) : (s.mark r).ready = s.ready := rfl
@[simp] theorem State.mark_rxEnabled (r : Refusal) : (s.mark r).rxEnabled = s.rxEnabled := rfl
@[simp] theorem State.mark_crcRx (r : Refusal) : (s.mark r).crcRx = s.crcRx := rfl
@[simp] theorem State.mark_crcTx (r : Refusal) : (s.mark r).crcTx = s.crcTx := rfl
@[simp] theorem State.mark_crcAcc (r : Refusal) : (s.mark r).crcAcc = s.crcAcc := rfl
@[simp] theorem State.mark_cfg (r : Refusal) : (s.mark r).cfg = s.cfg := rfl
@[simp] theorem State.mark_output (r : Refusal) : (s.mark r).output = s.output := rfl
@[simp] theorem State.mark_refusalMark (r : Refusal) : (s.mark r).refusalMark = some r := rfl
@[simp] theorem State.mark_setup (r : Refusal) : (s.mark r).setup = s.setup := rfl
@[simp] theorem State.mark_inputs (r : Refusal) : (s.mark r).inputs = s.inputs := rfl
@[simp] theorem State.mark_offers (r : Refusal) : (s.mark r).offers = s.offers := rfl

/-! ### `accept` -/

@[simp] theorem State.accept_rxState (o : Offer) (rest : List Offer) : (s.accept o rest).rxState = s.rxState := rfl
@[simp] theorem State.accept_rxIndex (o : Offer) (rest : List Offer) : (s.accept o rest).rxIndex = s.rxIndex := rfl
@[simp] theorem State.accept_rxBuf (o : Offer) (rest : List Offer) : (s.accept o rest).rxBuf = s.rxBuf := rfl
@[simp] theorem State.accept_ready (o : Offer) (rest : List Offer) : (s.accept o rest).ready = s.ready := rfl
@[simp] theorem State.accept_rxEnabled (o : Offer) (rest : List Offer) : (s.accept o rest).rxEnabled = s.rxEnabled := rfl
@[simp] theorem State.accept_crcRx (o : Offer) (rest : List Offer) : (s.accept o rest).crcRx = s.crcRx := rfl
@[simp] theorem State.accept_crcTx (o : Offer) (rest : List Offer) : (s.accept o rest).crcTx = s.crcTx := rfl
@[simp] theorem State.accept_crcAcc (o : Offer) (rest : List Offer) : (s.accept o rest).crcAcc = s.crcAcc := rfl
@[simp] theorem State.accept_cfg (o : Offer) (rest : List Offer) : (s.accept o rest).cfg = s.cfg := rfl
@[simp] theorem State.accept_output (o : Offer) (rest : List Offer) : (s.accept o rest).output = s.output := rfl
@[simp] theorem State.accept_refusalMark (o : Offer) (rest : List Offer) : (s.accept o rest).refusalMark = s.refusalMark := rfl
@[simp] theorem State.accept_setup (o : Offer) (rest : List Offer) : (s.accept o rest).setup = s.setup := rfl
@[simp] theorem State.accept_inputs (o : Offer) (rest : List Offer) : (s.accept o rest).inputs = o.inputs := rfl
@[simp] theorem State.accept_offers (o : Offer) (rest : List Offer) : (s.accept o rest).offers = rest := rfl

/-! ### `offerFirst` -/

@[simp] theorem State.offerFirst_rxState (o : Offer) : (s.offerFirst o).rxState = s.rxState := rfl
@[simp] theorem State.offerFirst_rxIndex (o : Offer) : (s.offerFirst o).rxIndex = s.rxIndex := rfl
@[simp] theorem State.offerFirst_rxBuf (o : Offer) : (s.offerFirst o).rxBuf = s.rxBuf := rfl
@[simp] theorem State.offerFirst_ready (o : Offer) : (s.offerFirst o).ready = s.ready := rfl
@[simp] theorem State.offerFirst_rxEnabled (o : Offer) : (s.offerFirst o).rxEnabled = s.rxEnabled := rfl
@[simp] theorem State.offerFirst_crcRx (o : Offer) : (s.offerFirst o).crcRx = s.crcRx := rfl
@[simp] theorem State.offerFirst_crcTx (o : Offer) : (s.offerFirst o).crcTx = s.crcTx := rfl
@[simp] theorem State.offerFirst_crcAcc (o : Offer) : (s.offerFirst o).crcAcc = s.crcAcc := rfl
@[simp] theorem State.offerFirst_cfg (o : Offer) : (s.offerFirst o).cfg = s.cfg := rfl
@[simp] theorem State.offerFirst_output (o : Offer) : (s.offerFirst o).output = s.output := rfl
@[simp] theorem State.offerFirst_refusalMark (o : Offer) : (s.offerFirst o).refusalMark = s.refusalMark := rfl
@[simp] theorem State.offerFirst_setup (o : Offer) : (s.offerFirst o).setup = s.setup := rfl
@[simp] theorem State.offerFirst_inputs (o : Offer) : (s.offerFirst o).inputs = s.inputs := rfl
@[simp] theorem State.offerFirst_offers (o : Offer) : (s.offerFirst o).offers = o :: s.offers := rfl

/-! ### `setRxBuf` -/

@[simp] theorem State.setRxBuf_rxState (m : Memory) : (s.setRxBuf m).rxState = s.rxState := rfl
@[simp] theorem State.setRxBuf_rxIndex (m : Memory) : (s.setRxBuf m).rxIndex = s.rxIndex := rfl
@[simp] theorem State.setRxBuf_rxBuf (m : Memory) : (s.setRxBuf m).rxBuf = m := rfl
@[simp] theorem State.setRxBuf_ready (m : Memory) : (s.setRxBuf m).ready = s.ready := rfl
@[simp] theorem State.setRxBuf_rxEnabled (m : Memory) : (s.setRxBuf m).rxEnabled = s.rxEnabled := rfl
@[simp] theorem State.setRxBuf_crcRx (m : Memory) : (s.setRxBuf m).crcRx = s.crcRx := rfl
@[simp] theorem State.setRxBuf_crcTx (m : Memory) : (s.setRxBuf m).crcTx = s.crcTx := rfl
@[simp] theorem State.setRxBuf_crcAcc (m : Memory) : (s.setRxBuf m).crcAcc = s.crcAcc := rfl
@[simp] theorem State.setRxBuf_cfg (m : Memory) : (s.setRxBuf m).cfg = s.cfg := rfl
@[simp] theorem State.setRxBuf_output (m : Memory) : (s.setRxBuf m).output = s.output := rfl
@[simp] theorem State.setRxBuf_refusalMark (m : Memory) : (s.setRxBuf m).refusalMark = s.refusalMark := rfl
@[simp] theorem State.setRxBuf_setup (m : Memory) : (s.setRxBuf m).setup = s.setup := rfl
@[simp] theorem State.setRxBuf_inputs (m : Memory) : (s.setRxBuf m).inputs = s.inputs := rfl
@[simp] theorem State.setRxBuf_offers (m : Memory) : (s.setRxBuf m).offers = s.offers := rfl

/-! ### `completeFrame` -/

@[simp] theorem State.completeFrame_rxState : (s.completeFrame).rxState = .idle := rfl
@[simp] theorem State.completeFrame_rxIndex : (s.completeFrame).rxIndex = 0 := rfl
@[simp] theorem State.completeFrame_rxBuf : (s.completeFrame).rxBuf = s.rxBuf := rfl
@[simp] theorem State.completeFrame_ready : (s.completeFrame).ready = true := rfl
@[simp] theorem State.completeFrame_rxEnabled : (s.completeFrame).rxEnabled = false := rfl
@[simp] theorem State.completeFrame_crcRx : (s.completeFrame).crcRx = s.crcRx := rfl
@[simp] theorem State.completeFrame_crcTx : (s.completeFrame).crcTx = s.crcTx := rfl
@[simp] theorem State.completeFrame_crcAcc : (s.completeFrame).crcAcc = s.crcAcc := rfl
@[simp] theorem State.completeFrame_cfg : (s.completeFrame).cfg = s.cfg := rfl
@[simp] theorem State.completeFrame_output : (s.completeFrame).output = s.output := rfl
@[simp] theorem State.completeFrame_refusalMark : (s.completeFrame).refusalMark = s.refusalMark := rfl
@[simp] theorem State.completeFrame_setup : (s.completeFrame).setup = s.setup := rfl
@[simp] theorem State.completeFrame_inputs : (s.completeFrame).inputs = s.inputs := rfl
@[simp] theorem State.completeFrame_offers : (s.completeFrame).offers = s.offers := rfl

/-! ### `applyCommon` -/

@[simp] theorem applyCommon_rxState (v : View) : (applyCommon v s).rxState = s.rxState := rfl
@[simp] theorem applyCommon_rxIndex (v : View) : (applyCommon v s).rxIndex = s.rxIndex := rfl
@[simp] theorem applyCommon_rxBuf (v : View) : (applyCommon v s).rxBuf = s.rxBuf := rfl
@[simp] theorem applyCommon_ready (v : View) : (applyCommon v s).ready = s.ready := rfl
@[simp] theorem applyCommon_rxEnabled (v : View) : (applyCommon v s).rxEnabled = s.rxEnabled := rfl
@[simp] theorem applyCommon_crcRx (v : View) : (applyCommon v s).crcRx = s.crcRx := rfl
@[simp] theorem applyCommon_crcTx (v : View) : (applyCommon v s).crcTx = s.crcTx := rfl
@[simp] theorem applyCommon_crcAcc (v : View) : (applyCommon v s).crcAcc = s.crcAcc := rfl
@[simp] theorem applyCommon_cfg (v : View) : (applyCommon v s).cfg = commonCfg v s.cfg := rfl
@[simp] theorem applyCommon_output (v : View) : (applyCommon v s).output = s.output := rfl
@[simp] theorem applyCommon_refusalMark (v : View) : (applyCommon v s).refusalMark = s.refusalMark := rfl
@[simp] theorem applyCommon_setup (v : View) : (applyCommon v s).setup = s.setup := rfl
@[simp] theorem applyCommon_inputs (v : View) : (applyCommon v s).inputs = s.inputs := rfl
@[simp] theorem applyCommon_offers (v : View) : (applyCommon v s).offers = s.offers := rfl

end Sys2Proof.Machine
end

