-- ==== Sys2Proof/Laws/Memory.lean ====
section
/-! SUPPORT. The laws of the receive buffer: reads after writes, and the canonical form, which every operation on the
buffer keeps. -/

namespace Sys2Proof.Machine

/-- A read after a write to the same offset gives the byte written. -/
@[simp] theorem Memory.read_write_same (m : Memory) (a : Nat) (b : Byte) :
    Memory.read (Memory.write m a b) a = some b := by
  induction m with
  | nil => simp [Memory.write, Memory.read]
  | cons c rest ih =>
    obtain ⟨k, v⟩ := c
    rcases Nat.lt_trichotomy a k with h | h | h
    · simp [Memory.write, Memory.read, h]
    · simp [Memory.write, Memory.read, h]
    · have h1 : ¬ a < k := by omega
      have h2 : ¬ a = k := by omega
      have h3 : ¬ k = a := by omega
      simp [Memory.write, Memory.read, h1, h2, h3, ih]

/-- A write leaves every other offset alone. -/
theorem Memory.read_write_other (m : Memory) {a x : Nat} (b : Byte) (h : x ≠ a) :
    Memory.read (Memory.write m a b) x = Memory.read m x := by
  induction m with
  | nil => simp [Memory.write, Memory.read, Ne.symm h]
  | cons c rest ih =>
    obtain ⟨k, v⟩ := c
    simp only [Memory.write]
    split
    · simp [Memory.read, Ne.symm h]
    · split
      · rename_i _ hk
        subst hk
        simp [Memory.read, Ne.symm h]
      · simp [Memory.read, ih]

/-- A write never takes a written offset back. -/
theorem Memory.read_write_isSome (m : Memory) (a x : Nat) (b : Byte) (h : (Memory.read m x).isSome) :
    (Memory.read (Memory.write m a b) x).isSome := by
  by_cases hx : x = a
  · subst hx; simp
  · rw [Memory.read_write_other m b hx]; exact h

/-- Rising from `lo` is rising from anything lower. -/
theorem Memory.risingFrom_mono {lo lo' : Nat} {m : Memory} (h : lo' ≤ lo) (hm : Memory.risingFrom lo m = true) :
    Memory.risingFrom lo' m = true := by
  cases m with
  | nil => rfl
  | cons c rest =>
    simp only [Memory.risingFrom, Bool.and_eq_true, decide_eq_true_eq] at hm ⊢
    exact ⟨⟨by omega, hm.1.2⟩, hm.2⟩

/-- A write at an offset of the buffer keeps the cells rising. -/
theorem Memory.write_risingFrom {lo : Nat} {m : Memory} {a : Nat} (b : Byte) (hlo : lo ≤ a) (ha : a < rxFrameLen)
    (hm : Memory.risingFrom lo m = true) : Memory.risingFrom lo (Memory.write m a b) = true := by
  induction m generalizing lo with
  | nil => simp [Memory.write, Memory.risingFrom, hlo, ha]
  | cons c rest ih =>
    obtain ⟨k, v⟩ := c
    simp only [Memory.risingFrom, Bool.and_eq_true, decide_eq_true_eq] at hm
    simp only [Memory.write]
    split
    · rename_i h
      simp [Memory.risingFrom, hlo, ha, hm.1.2, hm.2]
      omega
    · split
      · rename_i h
        subst h
        simp [Memory.risingFrom, hlo, ha, hm.2]
      · have hk : k + 1 ≤ a := by omega
        simp [Memory.risingFrom, hm.1.1, hm.1.2, ih hk hm.2]

/-- Every write at an offset of the buffer keeps the canonical form. -/
theorem Memory.write_wf {m : Memory} {a : Nat} (b : Byte) (ha : a < rxFrameLen) (hm : Memory.wf m = true) :
    Memory.wf (Memory.write m a b) = true :=
  Memory.write_risingFrom b (Nat.zero_le a) ha hm

/-- Nothing is written outside the buffer. -/
theorem Memory.read_beyond {lo : Nat} {m : Memory} (hm : Memory.risingFrom lo m = true) {a : Nat}
    (ha : rxFrameLen ≤ a ∨ a < lo) : Memory.read m a = none := by
  induction m generalizing lo with
  | nil => rfl
  | cons c rest ih =>
    obtain ⟨k, v⟩ := c
    simp only [Memory.risingFrom, Bool.and_eq_true, decide_eq_true_eq] at hm
    have hk : ¬ k = a := by omega
    simp only [Memory.read, hk, if_false]
    exact ih hm.2 (by omega)

/-- The bytes of a list placed in the buffer are in canonical form if they fit. -/
theorem bufferFrom_risingFrom (a : Nat) (bytes : List Byte) (h : a + bytes.length ≤ rxFrameLen) :
    Memory.risingFrom a (bufferFrom a bytes) = true := by
  induction bytes generalizing a with
  | nil => rfl
  | cons b rest ih =>
    simp only [List.length_cons] at h
    have ha : a < rxFrameLen := by omega
    simp [bufferFrom, Memory.risingFrom, ha, ih (a + 1) (by omega)]

/-- A placed frame keeps the canonical form. -/
theorem State.holdFrame_wf (s : State) (bytes : List Byte) (h : bytes.length ≤ rxFrameLen) :
    Memory.wf (s.holdFrame bytes).rxBuf = true :=
  bufferFrom_risingFrom 0 bytes (by omega)

/-- Two canonical buffers that read alike at every offset are equal lists. -/
theorem Memory.eq_of_read {lo : Nat} {m n : Memory} (hm : Memory.risingFrom lo m = true)
    (hn : Memory.risingFrom lo n = true) (h : ∀ a, Memory.read m a = Memory.read n a) : m = n := by
  induction m generalizing lo n with
  | nil =>
    cases n with
    | nil => rfl
    | cons d rest => have := h d.1; simp [Memory.read] at this
  | cons c rest ih =>
    obtain ⟨k, v⟩ := c
    cases n with
    | nil => have := h k; simp [Memory.read] at this
    | cons d rest' =>
      obtain ⟨k', v'⟩ := d
      simp only [Memory.risingFrom, Bool.and_eq_true, decide_eq_true_eq] at hm hn
      have hk : k = k' := by
        by_contra hne
        have h1 := h k
        have h2 := h k'
        have hne' : ¬ k' = k := fun e => hne e.symm
        simp only [Memory.read, hne, hne', if_true, if_false] at h1 h2
        rcases Nat.lt_or_gt_of_ne hne with hlt | hgt
        · rw [Memory.read_beyond hn.2 (Or.inr (by omega))] at h1; cases h1
        · rw [Memory.read_beyond hm.2 (Or.inr (by omega))] at h2; cases h2
      subst hk
      have hv : v = v' := by have := h k; simpa [Memory.read] using this
      subst hv
      have hrest : rest = rest' := by
        refine ih hm.2 hn.2 fun a => ?_
        by_cases ha : k = a
        · subst ha
          rw [Memory.read_beyond hm.2 (Or.inr (by omega)), Memory.read_beyond hn.2 (Or.inr (by omega))]
        · have := h a
          simpa [Memory.read, ha] using this
      rw [hrest]

/-- What a store into the buffer does: the offset exists, and only the buffer changes. -/
theorem State.storeRx_ok {s t : State} {a : Nat} {b : Byte} (h : s.storeRx a b = .ok t) :
    a < rxFrameLen ∧ t = s.setRxBuf (Memory.write s.rxBuf a b) := by
  simp only [State.storeRx] at h
  split at h
  · rename_i ha
    exact ⟨ha, (Except.ok.inj h).symm⟩
  · cases h

/-- A store at an offset of the buffer succeeds. -/
theorem State.storeRx_of_lt (s : State) {a : Nat} (b : Byte) (ha : a < rxFrameLen) :
    s.storeRx a b = .ok (s.setRxBuf (Memory.write s.rxBuf a b)) := by
  simp [State.storeRx, ha]

end Sys2Proof.Machine
end

