-- ==== Sys2Proof/Laws/Receiver.lean ====
section
/-! SUPPORT. What an RX_BYTE step can do, said once (41 R131), and the induction over the arrivals of a poll. -/

namespace Sys2Proof.Machine

/-- What `collectByte` can do when it succeeds (41 R133, R134). -/
theorem collectByte_cases {b : Byte} {s t : State} (h : collectByte b s = .ok t) :
    s.rxIndex.toNat < rxFrameLen ∧
      ((s.rxIndex + 1 = 9 ∧
          t = (s.setRxBuf (Memory.write s.rxBuf s.rxIndex.toNat b)).completeFrame) ∨
        (¬ s.rxIndex + 1 = 9 ∧
          t = (s.setRxBuf (Memory.write s.rxBuf s.rxIndex.toNat b)).setReceiver .collecting
            (s.rxIndex + 1))) := by
  simp only [collectByte] at h
  cases hst : s.storeRx s.rxIndex.toNat b with
  | error f => rw [hst] at h; cases h
  | ok u =>
    rw [hst] at h
    obtain ⟨ha, rfl⟩ := State.storeRx_ok hst
    refine ⟨ha, ?_⟩
    have ht := (Except.ok.inj h).symm
    by_cases hn : s.rxIndex + 1 = 9
    · left; rw [if_pos hn] at ht; exact ⟨hn, ht⟩
    · right; rw [if_neg hn] at ht; exact ⟨hn, ht⟩

/-- What `receiveByte` can do when it succeeds: drop the byte (41 R130), ignore noise (R135), start a frame (R132),
complete one (R134), or store a byte in the middle (R133). -/
theorem receiveByte_cases {b : Byte} {s t : State} (h : receiveByte b s = .ok t) :
    (s.rxEnabled = false ∧ t = s) ∨
    (s.rxEnabled = true ∧ s.rxState = .idle ∧ b ≠ rxStart ∧ t = s.setReceiver .idle 0) ∨
    (s.rxEnabled = true ∧ s.rxState = .idle ∧ b = rxStart ∧
      t = (s.setRxBuf (Memory.write s.rxBuf 0 b)).setReceiver .collecting 1) ∨
    (s.rxEnabled = true ∧ s.rxState = .collecting ∧ s.rxIndex.toNat < rxFrameLen ∧ s.rxIndex + 1 = 9 ∧
      t = (s.setRxBuf (Memory.write s.rxBuf s.rxIndex.toNat b)).completeFrame) ∨
    (s.rxEnabled = true ∧ s.rxState = .collecting ∧ s.rxIndex.toNat < rxFrameLen ∧ ¬ s.rxIndex + 1 = 9 ∧
      t = (s.setRxBuf (Memory.write s.rxBuf s.rxIndex.toNat b)).setReceiver .collecting
        (s.rxIndex + 1)) := by
  unfold receiveByte at h
  by_cases he : s.rxEnabled = true
  · rw [if_pos he] at h
    right
    cases hs : s.rxState with
    | idle =>
      simp only [hs] at h
      by_cases hb : b = rxStart
      · rw [if_pos hb, State.storeRx_of_lt s b (by decide : 0 < rxFrameLen)] at h
        exact Or.inr (Or.inl ⟨he, rfl, hb, (Except.ok.inj h).symm⟩)
      · rw [if_neg hb] at h
        exact Or.inl ⟨he, rfl, hb, (Except.ok.inj h).symm⟩
    | collecting =>
      simp only [hs] at h
      obtain ⟨ha, ⟨hn, ht⟩ | ⟨hn, ht⟩⟩ := collectByte_cases h
      · exact Or.inr (Or.inr (Or.inl ⟨he, rfl, ha, hn, ht⟩))
      · exact Or.inr (Or.inr (Or.inr ⟨he, rfl, ha, hn, ht⟩))
  · rw [if_neg he] at h
    exact Or.inl ⟨by simpa using he, (Except.ok.inj h).symm⟩

/-- While the channel is disabled a byte is dropped (41 R130). -/
theorem receiveByte_disabled (b : Byte) {s : State} (h : s.rxEnabled = false) : receiveByte b s = .ok s := by
  simp [receiveByte, h]

/-- In IDLE a start byte is stored at offset 0 and begins a frame (41 R132). -/
theorem receiveByte_start {s : State} (he : s.rxEnabled = true) (hs : s.rxState = .idle) :
    receiveByte rxStart s = .ok ((s.setRxBuf (Memory.write s.rxBuf 0 rxStart)).setReceiver .collecting 1) := by
  simp only [receiveByte, he, hs, if_true, State.storeRx_of_lt s rxStart (by decide : 0 < rxFrameLen)]

/-- In IDLE any other byte is noise (41 R135). -/
theorem receiveByte_noise {b : Byte} {s : State} (he : s.rxEnabled = true) (hs : s.rxState = .idle) (hb : b ≠ rxStart) :
    receiveByte b s = .ok (s.setReceiver .idle 0) := by
  simp only [receiveByte, he, hs, if_true, if_neg hb]

/-- In COLLECTING any byte is stored at the index (41 R133); the ninth completes the frame (R134). -/
theorem receiveByte_data (b : Byte) {s : State} (he : s.rxEnabled = true) (hs : s.rxState = .collecting)
    (hi : s.rxIndex.toNat < rxFrameLen) :
    receiveByte b s = .ok (if s.rxIndex + 1 = 9 then (s.setRxBuf (Memory.write s.rxBuf s.rxIndex.toNat b)).completeFrame
      else (s.setRxBuf (Memory.write s.rxBuf s.rxIndex.toNat b)).setReceiver .collecting (s.rxIndex + 1)) := by
  simp only [receiveByte, collectByte, he, hs, if_true, State.storeRx_of_lt s b hi]

/-- An RX_BYTE step writes no accumulator, no configuration register, no event, and none of the model's fields. -/
theorem receiveByte_frame {b : Byte} {s t : State} (h : receiveByte b s = .ok t) :
    t.crcRx = s.crcRx ∧ t.crcTx = s.crcTx ∧ t.crcAcc = s.crcAcc ∧ t.cfg = s.cfg ∧ t.output = s.output ∧
      t.refusalMark = s.refusalMark ∧ t.setup = s.setup ∧ t.inputs = s.inputs ∧ t.offers = s.offers := by
  rcases receiveByte_cases h with ⟨_, rfl⟩ | ⟨_, _, _, rfl⟩ | ⟨_, _, _, rfl⟩ | ⟨_, _, _, _, rfl⟩ | ⟨_, _, _, _, rfl⟩ <;>
    simp

/-- `rx_index` is a valid offset where a byte can be stored (10 R23), so the step succeeds. -/
theorem receiveByte_ok (b : Byte) {s : State} (h : s.rxState = .collecting → s.rxIndex.toNat < rxFrameLen) :
    ∃ t, receiveByte b s = .ok t := by
  cases he : s.rxEnabled with
  | false => exact ⟨s, receiveByte_disabled b he⟩
  | true =>
    cases hs : s.rxState with
    | collecting => exact ⟨_, receiveByte_data b he hs (h hs)⟩
    | idle =>
      by_cases hb : b = rxStart
      · exact ⟨_, hb ▸ receiveByte_start he hs⟩
      · exact ⟨_, receiveByte_noise he hs hb⟩

/-- One more arrival: the first RX_BYTE step, then the rest of the interval. -/
theorem runArrivals_cons {b : Byte} {rest : List Byte} {s u : State} {instants : List Memory}
    (h : runArrivals (b :: rest) s = .ok (instants, u)) :
    ∃ t later, receiveByte b s = .ok t ∧ runArrivals rest t = .ok (later, u) ∧ instants = s.rxBuf :: later := by
  simp only [runArrivals] at h
  cases hb : receiveByte b s with
  | error f => simp only [hb] at h; cases h
  | ok t =>
    cases hr : runArrivals rest t with
    | error f => simp only [hb, hr] at h; cases h
    | ok r =>
      obtain ⟨ms, u'⟩ := r
      simp only [hb, hr, Except.ok.injEq, Prod.mk.injEq] at h
      exact ⟨t, ms, rfl, by rw [hr, h.2], h.1.symm⟩

/-- Induction over the arrivals of a poll: what every RX_BYTE step keeps, the interval keeps. -/
theorem runArrivals_keeps {P : State → Prop} (hstep : ∀ b s t, P s → receiveByte b s = .ok t → P t)
    {bytes : List Byte} {s u : State} {instants : List Memory} (h : runArrivals bytes s = .ok (instants, u))
    (hs : P s) : P u := by
  induction bytes generalizing s instants with
  | nil =>
    simp only [runArrivals, Except.ok.injEq, Prod.mk.injEq] at h
    obtain ⟨_, rfl⟩ := h
    exact hs
  | cons b rest ih =>
    obtain ⟨t, later, hb, hr, _⟩ := runArrivals_cons h
    exact ih hr (hstep b s t hs hb)

/-- The arrivals of a poll succeed from a state in which an invariant of RX_BYTE makes each of them succeed. -/
theorem runArrivals_ok {P : State → Prop} (hstep : ∀ b s t, P s → receiveByte b s = .ok t → P t)
    (hidx : ∀ s, P s → s.rxState = .collecting → s.rxIndex.toNat < rxFrameLen) (bytes : List Byte) {s : State}
    (hs : P s) : ∃ instants u, runArrivals bytes s = .ok (instants, u) := by
  induction bytes generalizing s with
  | nil => exact ⟨_, _, rfl⟩
  | cons b rest ih =>
    obtain ⟨t, ht⟩ := receiveByte_ok b (hidx s hs)
    obtain ⟨ms, u, hu⟩ := ih (hstep b s t hs ht)
    exact ⟨s.rxBuf :: ms, u, by simp only [runArrivals, ht, hu]⟩

/-- The arrivals of a poll leave what every RX_BYTE step leaves. -/
theorem runArrivals_frame {bytes : List Byte} {s u : State} {instants : List Memory}
    (h : runArrivals bytes s = .ok (instants, u)) :
    u.crcRx = s.crcRx ∧ u.crcTx = s.crcTx ∧ u.crcAcc = s.crcAcc ∧ u.cfg = s.cfg ∧ u.output = s.output ∧
      u.refusalMark = s.refusalMark ∧ u.setup = s.setup ∧ u.inputs = s.inputs ∧ u.offers = s.offers := by
  refine runArrivals_keeps
    (P := fun t => t.crcRx = s.crcRx ∧ t.crcTx = s.crcTx ∧ t.crcAcc = s.crcAcc ∧ t.cfg = s.cfg ∧ t.output = s.output ∧
      t.refusalMark = s.refusalMark ∧ t.setup = s.setup ∧ t.inputs = s.inputs ∧ t.offers = s.offers)
    ?_ h ⟨rfl, rfl, rfl, rfl, rfl, rfl, rfl, rfl, rfl⟩
  intro b v t hv ht
  simp only [receiveByte_frame ht]
  exact hv

/-- The first instant of an interval is its opening. -/
theorem runArrivals_head {bytes : List Byte} {s u : State} {instants : List Memory}
    (h : runArrivals bytes s = .ok (instants, u)) : instants.head? = some s.rxBuf := by
  cases bytes with
  | nil =>
    simp only [runArrivals, Except.ok.injEq, Prod.mk.injEq] at h
    rw [← h.1]; rfl
  | cons b rest =>
    obtain ⟨_, _, _, _, rfl⟩ := runArrivals_cons h
    rfl

end Sys2Proof.Machine
end

