-- ==== Sys2Proof/Laws/Decoder.lean ====
section
/-! SUPPORT. What a dispatched message, a commit and a poll can do, said once (42 R150 to R171). -/

namespace Sys2Proof.Machine

/-- Bit `i` of a 16-bit field: the low byte's bits first. -/
theorem getLsbD_half (lo hi : Byte) (i : Nat) :
    (half lo hi).getLsbD i = if i < 8 then lo.getLsbD i else hi.getLsbD (i - 8) := by
  have h := BitVec.getLsbD_append (x := hi) (y := lo) (i := i)
  by_cases h8 : i < 8 <;> simpa [half, h8] using h

/-- A 16-bit field as 30 R84 writes it: the high byte shifted, the low byte or-ed in. -/
theorem half_eq_shift_or (lo hi : Byte) : half lo hi = hi.zeroExtend 16 <<< 8 ||| lo.zeroExtend 16 := by
  apply BitVec.eq_of_getLsbD_eq
  intro i hi16
  rw [getLsbD_half]
  by_cases h8 : i < 8
  · simp [h8, hi16]
  · have h9 : lo.getLsbD i = false := BitVec.getLsbD_of_ge lo i (by omega)
    simp [h8, h9, hi16]

/-- A 16-bit field rebuilt from its two bytes. -/
@[simp] theorem half_lowByte_highByte (h : Half) : half (lowByte h) (highByte h) = h := by
  apply BitVec.eq_of_getLsbD_eq
  intro i hi
  rw [getLsbD_half]
  by_cases h8 : i < 8
  · simp [lowByte, h8]
  · have h9 : i - 8 < 8 := by omega
    have h10 : 8 + (i - 8) = i := by omega
    simp [highByte, h8, h9, h10]

/-- The low byte of a field is the byte it was built from. -/
@[simp] theorem lowByte_half (lo hi : Byte) : lowByte (half lo hi) = lo := by
  apply BitVec.eq_of_getLsbD_eq
  intro i hi
  simp [lowByte, getLsbD_half, hi]

/-- The high byte of a field is the byte it was built from. -/
@[simp] theorem highByte_half (lo hi : Byte) : highByte (half lo hi) = hi := by
  apply BitVec.eq_of_getLsbD_eq
  intro i h
  simp [highByte, getLsbD_half, h]

/-- The valid ramp-up rates are 4 to 100 (00 R7, 42 R167). -/
theorem rampInRange_iff (r : Byte) : rampInRange r = true ↔ 4 ≤ r.toNat ∧ r.toNat ≤ 100 := by
  unfold rampInRange
  rw [Bool.and_eq_true, decide_eq_true_iff, decide_eq_true_iff]
  exact Iff.rfl

/-- With a default in range, every rate that is stored is valid (42 R167, 00 R9). -/
theorem rampRate_inRange {d : Byte} (h : rampInRange d = true) (r : Byte) : rampInRange (rampRate d r) = true := by
  unfold rampRate
  split <;> assumption

/-- What a message's own operation leaves unchanged: everything but the configuration registers and the stream. -/
def SameButCfgOutput (s t : State) : Prop :=
  t.rxState = s.rxState ∧ t.rxIndex = s.rxIndex ∧ t.rxBuf = s.rxBuf ∧ t.ready = s.ready ∧
    t.rxEnabled = s.rxEnabled ∧ t.crcRx = s.crcRx ∧ t.crcTx = s.crcTx ∧ t.crcAcc = s.crcAcc ∧
    t.refusalMark = s.refusalMark ∧ t.setup = s.setup ∧ t.inputs = s.inputs ∧ t.offers = s.offers

/-- The one rule the map of 30 R88 selects for a message-ID (42 R158), as an elimination: what holds of each message's
own operation at its ID, and of no operation at every reserved ID, holds of the dispatch. -/
theorem dispatch_elim {motive : Nat → State → Prop} (p : Params) (id b5 b6 : Byte) (s : State)
    (msg0 : motive 0 (dispatchMsg0 p b5 b6 s)) (msg1 : motive 1 (dispatchMsg1 b5 b6 s))
    (msg2 : motive 2 (dispatchMsg2 b5 b6 s)) (msg3 : motive 3 (dispatchMsg3 b5 b6 s))
    (msg4 : motive 4 (dispatchMsg4 b5 b6 s)) (msg5 : motive 5 (dispatchMsg5 b5 b6 s))
    (msg6 : motive 6 (dispatchMsg6 b5 b6 s)) (msg7 : motive 7 (dispatchMsg7 b5 b6 s))
    (msg8 : motive 8 (dispatchMsg8 b5 b6 s)) (reserved : ∀ n, 9 ≤ n → motive n s) :
    motive id.toNat (dispatch p id b5 b6 s) := by
  unfold dispatch
  generalize id.toNat = n
  split
  case h_10 =>
    refine reserved _ (Nat.not_lt.mp fun hlt => ?_)
    interval_cases n <;> contradiction
  all_goals assumption

/-- A message's own operation writes configuration registers and appends events, and nothing else. -/
theorem dispatch_frame (p : Params) (id b5 b6 : Byte) (s : State) : SameButCfgOutput s (dispatch p id b5 b6 s) := by
  apply dispatch_elim (motive := fun _ t => SameButCfgOutput s t)
  case reserved => intro n _; simp [SameButCfgOutput]
  all_goals
    simp [SameButCfgOutput, dispatchMsg0, dispatchMsg1, dispatchMsg2, dispatchMsg3, dispatchMsg4, dispatchMsg5,
      dispatchMsg6, dispatchMsg7, dispatchMsg8]

/-- A message's own operation appends to the stream: `CUTOFF_STEP` for ID 0, `MAX_CURRENT` for ID 2, nothing for any
other (42 R157). -/
theorem dispatch_output (p : Params) (id b5 b6 : Byte) (s : State) :
    (dispatch p id b5 b6 s).output = s.output ++
      (if id.toNat = 0 then [.cutoffStep (p.cutoffStep (half b5 b6))]
        else if id.toNat = 2 then [.maxCurrent b6] else []) := by
  refine dispatch_elim (motive := fun n t => t.output = s.output ++
    (if n = 0 then [Event.cutoffStep (p.cutoffStep (half b5 b6))] else if n = 2 then [Event.maxCurrent b6] else []))
    p id b5 b6 s ?_ ?_ ?_ ?_ ?_ ?_ ?_ ?_ ?_ ?reserved
  case reserved =>
    intro n hn
    rw [if_neg (by omega), if_neg (by omega), List.append_nil]
  all_goals
    simp [dispatchMsg0, dispatchMsg1, dispatchMsg2, dispatchMsg3, dispatchMsg4, dispatchMsg5, dispatchMsg6,
      dispatchMsg7, dispatchMsg8]

/-- What a commit can do (42 R154, R155): on a mismatch `crc_rx` and the re-arm, on a match the match path. -/
theorem commit_cases (p : Params) (v : View) (own : State → State) (s : State) :
    (frameCrc p v.covered ≠ v.expected ∧ commit p v own s = (s.setCrcRx (frameCrc p v.covered)).armReceiver) ∨
    (frameCrc p v.covered = v.expected ∧
      commit p v own s = matchPath v own (s.setCrcRx (frameCrc p v.covered))) := by
  by_cases h : frameCrc p v.covered = v.expected
  · exact Or.inr ⟨h, by simp [commit, h]⟩
  · exact Or.inl ⟨h, by simp [commit, h]⟩

/-- Every commit leaves the receiver's registers, the buffer, the other accumulators and the model's fields, provided
the message's own operation does. -/
theorem commit_frame (p : Params) (v : View) {own : State → State} (hown : ∀ s, SameButCfgOutput s (own s)) (s : State) :
    (commit p v own s).rxState = s.rxState ∧ (commit p v own s).rxIndex = s.rxIndex ∧
      (commit p v own s).rxBuf = s.rxBuf ∧ (commit p v own s).rxEnabled = true ∧
      (commit p v own s).crcTx = s.crcTx ∧ (commit p v own s).crcAcc = s.crcAcc ∧
      (commit p v own s).refusalMark = s.refusalMark ∧ (commit p v own s).setup = s.setup ∧
      (commit p v own s).inputs = s.inputs ∧ (commit p v own s).offers = s.offers := by
  rcases commit_cases p v own s with ⟨_, h⟩ | ⟨_, h⟩ <;> rw [h]
  · simp
  · obtain ⟨h1, h2, h3, _, _, _, h7, h8, h9, h10, h11, h12⟩ :=
      hown ((applyCommon v (s.setCrcRx (frameCrc p v.covered))).emit (.lights (bitOf v.flags 0)))
    simp [matchPath, h1, h2, h3, h7, h8, h9, h10, h11, h12]

/-- After a commit `ready` is 0 exactly on the match path, and otherwise as before (42 R154, R155). -/
theorem commit_ready (p : Params) (v : View) (own : State → State) (s : State) :
    (commit p v own s).ready = (if frameCrc p v.covered = v.expected then false else s.ready) := by
  rcases commit_cases p v own s with ⟨hc, h⟩ | ⟨hc, h⟩ <;> rw [h]
  · rw [if_neg hc]; simp
  · rw [if_pos hc]; simp [matchPath]

/-- A mismatch writes no configuration register and emits nothing (42 R154). -/
theorem commit_mismatch (p : Params) (v : View) (own : State → State) (s : State)
    (h : frameCrc p v.covered ≠ v.expected) :
    (commit p v own s).cfg = s.cfg ∧ (commit p v own s).output = s.output := by
  rcases commit_cases p v own s with ⟨_, hc⟩ | ⟨hc, _⟩
  · rw [hc]; simp
  · exact absurd hc h

/-- What a poll can do when it answers a next state (42 R150, R151): nothing, or a commit in the opening state, or the
commit after the arrivals of its interval. -/
theorem decodePoll_cases {p : Params} {s t : State} (h : decodePoll p s = .next t) :
    (s.ready = false ∧ t = s) ∨
    (s.ready = true ∧ s.setup.decodeView = .atomic ∧ t = commitView p (viewOf p s.rxBuf) s) ∨
    (s.ready = true ∧ s.setup.decodeView = .preemptible ∧ ∃ instants u,
      runArrivals s.inputs.arrivals s = .ok (instants, u) ∧ t = commitView p (viewAt p instants s.inputs) u) := by
  unfold decodePoll at h
  cases hr : s.ready with
  | false =>
    rw [hr, if_neg Bool.false_ne_true] at h
    exact Or.inl ⟨rfl, (Host.Outcome.next.inj h).symm⟩
  | true =>
    rw [hr, if_pos rfl] at h
    right
    cases hv : s.setup.decodeView with
    | atomic =>
      rw [hv] at h
      exact Or.inl ⟨rfl, rfl, (Host.Outcome.next.inj h).symm⟩
    | preemptible =>
      rw [hv] at h
      simp only [pollPreemptible] at h
      cases ha : runArrivals s.inputs.arrivals s with
      | error f => rw [ha] at h; cases h
      | ok r =>
        obtain ⟨ms, u⟩ := r
        rw [ha] at h
        exact Or.inr ⟨rfl, rfl, ms, u, rfl, (Host.Outcome.next.inj h).symm⟩

/-- A meaning guarded by the configuration: it runs, or the state is marked `BAD_CONFIG` (00 R9). -/
theorem configured_of_wellFormed {s : State} (k : State → Host.Outcome State Fault Refusal)
    (h : setupWellFormed s.setup = true) : configured s k = k s := by
  simp [configured, h]

end Sys2Proof.Machine
end

