-- ==== Sys2Proof/Laws/Encoder.lean ====
section
/-! SUPPORT. What sending a frame does, said once (43 R190, R206, R207). -/

namespace Sys2Proof.Machine

/-- The frame's 26 covered bytes. -/
@[simp] theorem TxPayload.body_length (p : TxPayload) : p.body.length = 26 := rfl

/-- A transmit frame is 28 bytes long (00 R6). -/
@[simp] theorem txFrame_length (p : Params) (q : TxPayload) : (txFrame p q).length = txFrameLen := rfl

/-- Sending a frame writes `crc_tx` and appends its 28 events, and nothing else. -/
theorem emitFrame_eq (p : Params) (q : TxPayload) (s : State) :
    emitFrame p q s =
      { s with crcTx := ⟨frameCrc p q.body, true⟩, output := s.output ++ (txFrame p q).map Event.tx } := rfl

end Sys2Proof.Machine
end

