-- ==== Sys2Proof/Laws/PerInstr.lean ====
section
/-! SUPPORT. Statements made per instruction, about the instruction as syntax: one lemma per constructor. -/

/-- Every row of the opcode table that has the instruction's mnemonic has the width of its encoded form (30 R83). -/
def Sys2Proof.Laws.EncodedWidth.Statement (i : Sys2Proof.Instr) : Prop :=
  ∀ r, r ∈ Sys2Proof.opcodeTable → r.mnemonic = i.mnemonic → r.width = (Sys2Proof.encode i).tableWord.1

namespace Sys2Proof.Laws.EncodedWidth

open Sys2Proof

theorem rxByte (b : Byte) : Statement (.rxByte b) :=
  show ∀ r, r ∈ opcodeTable → r.mnemonic = "RX_BYTE" → r.width = 11 by decide

theorem decodePoll : Statement (.decodePoll) :=
  show ∀ r, r ∈ opcodeTable → r.mnemonic = "DECODE_POLL" → r.width = 11 by decide

theorem sendTelemetry : Statement (.sendTelemetry) :=
  show ∀ r, r ∈ opcodeTable → r.mnemonic = "SEND_TELEMETRY" → r.width = 11 by decide

theorem crcInit : Statement (.crcInit) :=
  show ∀ r, r ∈ opcodeTable → r.mnemonic = "CRC_INIT" → r.width = 11 by decide

theorem crcUpdate (b : Byte) : Statement (.crcUpdate b) :=
  show ∀ r, r ∈ opcodeTable → r.mnemonic = "CRC_UPDATE" → r.width = 11 by decide

theorem msg0 (f : RxFields) : Statement (.msg0 f) :=
  show ∀ r, r ∈ opcodeTable → r.mnemonic = "MSG0" → r.width = 72 by decide

theorem msg1 (f : RxFields) : Statement (.msg1 f) :=
  show ∀ r, r ∈ opcodeTable → r.mnemonic = "MSG1" → r.width = 72 by decide

theorem msg2 (f : RxFields) : Statement (.msg2 f) :=
  show ∀ r, r ∈ opcodeTable → r.mnemonic = "MSG2" → r.width = 72 by decide

theorem msg3 (f : RxFields) : Statement (.msg3 f) :=
  show ∀ r, r ∈ opcodeTable → r.mnemonic = "MSG3" → r.width = 72 by decide

theorem msg4 (f : RxFields) : Statement (.msg4 f) :=
  show ∀ r, r ∈ opcodeTable → r.mnemonic = "MSG4" → r.width = 72 by decide

theorem msg5 (f : RxFields) : Statement (.msg5 f) :=
  show ∀ r, r ∈ opcodeTable → r.mnemonic = "MSG5" → r.width = 72 by decide

theorem msg6 (f : RxFields) : Statement (.msg6 f) :=
  show ∀ r, r ∈ opcodeTable → r.mnemonic = "MSG6" → r.width = 72 by decide

theorem msg7 (f : RxFields) : Statement (.msg7 f) :=
  show ∀ r, r ∈ opcodeTable → r.mnemonic = "MSG7" → r.width = 72 by decide

theorem msg8 (f : RxFields) : Statement (.msg8 f) :=
  show ∀ r, r ∈ opcodeTable → r.mnemonic = "MSG8" → r.width = 72 by decide

theorem msgOther (id : Byte) (f : RxFields) : Statement (.msgOther id f) :=
  show ∀ r, r ∈ opcodeTable → r.mnemonic = "MSG_OTHER" → r.width = 72 by decide

theorem telemetry (p : TxPayload) (lo hi : Byte) : Statement (.telemetry p lo hi) :=
  show ∀ r, r ∈ opcodeTable → r.mnemonic = "TELEMETRY" → r.width = 224 by decide

end Sys2Proof.Laws.EncodedWidth
end

