-- ==== Sys2Proof/Laws/Step.lean ====
section
/-! SUPPORT. What a step can do, said once (30 R93, R104). -/

namespace Sys2Proof.Machine

/-- What a step that answers a next state can be: the refusal of a configuration or of a word, a wait, or the
instruction of the word offered. -/
theorem step_cases {s t : State} (h : step s = .next t) :
    s.refusalMark = none ∧
    ((setupWellFormed s.setup = false ∧ t = s.mark .badConfig) ∨
      (setupWellFormed s.setup = true ∧
        ((s.offers = [] ∧ t = s) ∨
          ∃ o rest, s.offers = o :: rest ∧
            ((∃ e, decodeCmd o.word = .error e ∧ t = s.mark (refusalOf e)) ∨
              ∃ i, decodeCmd o.word = .ok i ∧ exec i (s.accept o rest) = .next t)))) := by
  unfold step nextOp at h
  cases hm : s.refusalMark with
  | some r => rw [hm] at h; cases h
  | none =>
    rw [hm] at h
    refine ⟨rfl, ?_⟩
    cases hw : setupWellFormed s.setup with
    | false =>
      rw [hw] at h
      exact Or.inl ⟨rfl, (Host.Outcome.next.inj h).symm⟩
    | true =>
      rw [hw] at h
      refine Or.inr ⟨rfl, ?_⟩
      cases ho : s.offers with
      | nil =>
        rw [ho] at h
        exact Or.inl ⟨rfl, (Host.Outcome.next.inj h).symm⟩
      | cons o rest =>
        rw [ho] at h
        refine Or.inr ⟨o, rest, rfl, ?_⟩
        cases hd : decodeCmd o.word with
        | error e =>
          simp only [hd] at h
          exact Or.inl ⟨e, rfl, (Host.Outcome.next.inj h).symm⟩
        | ok i =>
          simp only [hd] at h
          exact Or.inr ⟨i, rfl, h⟩

/-- The five operations a command word can name (30 R96). -/
theorem decodeCmd_cases {w : CmdWord} {i : Instr} (h : decodeCmd w = .ok i) :
    (∃ b, i = .rxByte b) ∨ i = .decodePoll ∨ i = .sendTelemetry ∨ i = .crcInit ∨ ∃ b, i = .crcUpdate b := by
  unfold decodeCmd at h
  simp only at h
  split at h
  · exact Or.inl ⟨_, (Except.ok.inj h).symm⟩
  all_goals first
    | (unfold withoutData at h; split at h
       · have := Except.ok.inj h; subst this; simp
       · cases h)
    | exact Or.inr (Or.inr (Or.inr (Or.inr ⟨_, (Except.ok.inj h).symm⟩)))
    | cases h

/-- What the five operations do when they answer a next state. -/
theorem exec_rxByte {b : Byte} {s t : State} (h : exec (.rxByte b) s = .next t) : receiveByte b s = .ok t := by
  simp only [exec, execRxByte, outcomeOf] at h
  split at h
  · rename_i u hu
    rw [hu, Host.Outcome.next.inj h]
  · cases h

/-- A poll either sets the mark for an ill-formed configuration, or is `decodePoll`. -/
theorem exec_decodePoll {s t : State} (h : exec .decodePoll s = .next t) :
    (setupWellFormed s.setup = false ∧ t = s.mark .badConfig) ∨
    (setupWellFormed s.setup = true ∧ decodePoll machineParams s = .next t) := by
  simp only [exec, execDecodePoll, configured] at h
  split at h
  · rename_i hw
    exact Or.inr ⟨hw, h⟩
  · rename_i hw
    exact Or.inl ⟨by simpa using hw, (Host.Outcome.next.inj h).symm⟩

/-- CRC_UPDATE on an accumulator initialised since reset folds one byte and does nothing else (40 R111). -/
theorem exec_crcUpdate_initialised {s : State} (b : Byte) (h : s.crcAcc.initialised = true) :
    exec (.crcUpdate b) s = .next (s.setCrcAcc (machineParams.crc16Step s.crcAcc.value b)) := by
  simp only [exec, execCrcUpdate, crcUpdate, h, if_true]

/-- CRC_UPDATE on an accumulator never initialised since reset faults (40 R113). -/
theorem exec_crcUpdate_unwritten {s : State} (b : Byte) (h : s.crcAcc.initialised = false) :
    exec (.crcUpdate b) s = .fault .unwrittenCrc := by
  simp [exec, execCrcUpdate, crcUpdate, h]

/-- A CRC_UPDATE that answers a next state found the accumulator initialised (40 R113). -/
theorem exec_crcUpdate {b : Byte} {s t : State} (h : exec (.crcUpdate b) s = .next t) :
    s.crcAcc.initialised = true ∧ t = s.setCrcAcc (machineParams.crc16Step s.crcAcc.value b) := by
  cases hi : s.crcAcc.initialised with
  | true => exact ⟨rfl, (Host.Outcome.next.inj ((exec_crcUpdate_initialised b hi).symm.trans h)).symm⟩
  | false => rw [exec_crcUpdate_unwritten b hi] at h; cases h

end Sys2Proof.Machine
end

