-- ==== Sys2Proof/Tests/Slice0.lean ====
section
/-! SUPPORT. The model's own tests, on one step each. Expected values come from the spec: the vectors of file 95, the
worked examples of files 41 to 43. CRC values are those of the reference step (40 R112), so those tests run the
operations with the reference parameters. Then the witnesses of the statements' hypotheses. -/

namespace Sys2Proof.Tests

open Sys2Proof Sys2Proof.Machine Sys2Proof.Claims

-- The CRC of a whole frame is a deep evaluation.
set_option maxRecDepth 20000

/-! ### Helpers -/

/-- The next state of an outcome, if it is one. -/
def nextOf : Host.Outcome State Fault Refusal → Option State
  | .next s => some s
  | .fault _ => none
  | .refused _ => none

/-- Some field of the next state of an outcome. -/
def field {α : Type} (o : Host.Outcome State Fault Refusal) (get : State → α) : Option α := (nextOf o).map get

/-- Parameters with the reference step; the cutoff step stays a marker, its low byte. -/
def refP : Params := referenceParams lowByte fun _ => 0xEE

/-- A state with a complete frame in the buffer, as the receiver leaves it. -/
def holding (bytes : List Byte) : State := State.reset.holdFrame bytes

/-- The events and some registers after a poll under the reference parameters. -/
def pollOf (bytes : List Byte) (regs : List (Fin 22)) : Option (List Event × List Half) :=
  (nextOf (decodePoll refP (holding bytes))).map fun t => (t.output, regs.map t.cfg.read)

/-- Inputs of vector T1 (43 R211). -/
def telT1 : Telemetry where
  battVoltageAdc := 0x2A5
  battCurrentRaw := 100
  wheelSpeed := 0x0102
  brake := 1
  throttleAdcRaw := 0x35
  motorTemperature := 0x28
  throttleProcessed := 0x00
  torqueAdcRaw := 0x7B
  torqueProcessed := 0x10
  pedalCadence := 0x3C
  pedalPowerMapped := 0x20
  pwmDutyCycle := 0x80
  motorErps := 0x01F4
  focAngle := 0x05
  systemState := 0x00
  tempLimitingValue := 0xFF
  tickCounter := 0x123456
  pedalTorqueX10 := 0x01C2
  pedalPowerX10 := 0x0BB8

/-- Inputs of vector T4 (file 95). -/
def telT4 : Telemetry where
  battVoltageAdc := 0xFFFF
  battCurrentRaw := 1023
  wheelSpeed := 0xFFFF
  brake := 1
  throttleAdcRaw := 0xFF
  motorTemperature := 0x11
  throttleProcessed := 0xEE
  torqueAdcRaw := 0xFF
  torqueProcessed := 0xFF
  pedalCadence := 0xFF
  pedalPowerMapped := 0xFF
  pwmDutyCycle := 0xFF
  motorErps := 0xFFFF
  focAngle := 0xFF
  systemState := 0xFF
  tempLimitingValue := 0xFF
  tickCounter := 0xFFFFFF
  pedalTorqueX10 := 0xFFFF
  pedalPowerX10 := 0xFFFF

/-! ### Well-formedness -/

/-- A reserved message-ID is at least 9 (30 R89): `MSG_OTHER` with ID 8 is ill formed, with ID 9 it is not. -/
theorem test_wellFormed_refuses_msgOther_8 :
    (Instr.msgOther 8 ⟨0, 0, 0, 0, 0, 0, 0⟩).wellFormed = false ∧
      (Instr.msgOther 9 ⟨0, 0, 0, 0, 0, 0, 0⟩).wellFormed = true := by decide

/-- `RAMP_DEFAULT` is well formed in `[4, 100]` only (00 R9). -/
theorem test_setup_bounds :
    ([3, 4, 100, 101].map fun b => setupWellFormed ⟨.atomic, b⟩) = [false, true, true, false] := by decide

/-! ### Decoding: words written out from the spec's encodings -/

/-- The CMD vectors of file 95: three-digit words `op << 8 | data` (30 R96 to R98). -/
theorem test_decode_cmd :
    decodeCmd 0b00001011001 = .ok (.rxByte 0x59) ∧ decodeCmd 0b00011111111 = .ok (.rxByte 0xFF) ∧
    decodeCmd 0b00100000000 = .ok .decodePoll ∧ decodeCmd 0x101 = .error .nonzeroData ∧
    decodeCmd 0b01000000000 = .ok .sendTelemetry ∧ decodeCmd 0x2A5 = .error .nonzeroData ∧
    decodeCmd 0b01100000000 = .ok .crcInit ∧ decodeCmd 0x3FF = .error .nonzeroData ∧
    decodeCmd 0b10001001011 = .ok (.crcUpdate 0x4B) ∧ decodeCmd 0x500 = .error .reservedOp ∧
    decodeCmd 0x6AB = .error .reservedOp ∧ decodeCmd 0x7FF = .error .reservedOp := by decide

/-- RXF frames of file 95 (vectors D0 to D9), byte 0 first (30 R81, R88). -/
theorem test_decode_rxf :
    decodeRxf [0x59, 0x00, 0x0A, 0x01, 0x14, 0x54, 0x01, 0xF4, 0xFC] =
      some (.msg0 ⟨0x0A, 0x01, 0x14, 0x54, 0x01, 0xF4, 0xFC⟩) ∧
    decodeRxf [0x59, 0x01, 0x0A, 0x00, 0x14, 0x02, 0x08, 0x0B, 0x77] =
      some (.msg1 ⟨0x0A, 0x00, 0x14, 0x02, 0x08, 0x0B, 0x77⟩) ∧
    decodeRxf [0x59, 0x02, 0x0A, 0x02, 0x14, 0x19, 0x10, 0x00, 0x06] =
      some (.msg2 ⟨0x0A, 0x02, 0x14, 0x19, 0x10, 0x00, 0x06⟩) ∧
    decodeRxf [0x59, 0x03, 0x1E, 0xFD, 0xFF, 0x02, 0xFC, 0x7A, 0x89] =
      some (.msg3 ⟨0x1E, 0xFD, 0xFF, 0x02, 0xFC, 0x7A, 0x89⟩) ∧
    decodeRxf [0x59, 0x04, 0x0A, 0x00, 0x14, 0x14, 0x1E, 0x84, 0x8C] =
      some (.msg4 ⟨0x0A, 0x00, 0x14, 0x14, 0x1E, 0x84, 0x8C⟩) := by decide

theorem test_decode_rxf_more :
    decodeRxf [0x59, 0x05, 0x0A, 0x00, 0x14, 0x0A, 0x01, 0xCD, 0x35] =
      some (.msg5 ⟨0x0A, 0x00, 0x14, 0x0A, 0x01, 0xCD, 0x35⟩) ∧
    decodeRxf [0x59, 0x06, 0x0A, 0x00, 0x14, 0x41, 0x55, 0xFA, 0x09] =
      some (.msg6 ⟨0x0A, 0x00, 0x14, 0x41, 0x55, 0xFA, 0x09⟩) ∧
    decodeRxf [0x59, 0x07, 0x0A, 0x00, 0x14, 0x0A, 0x32, 0x8C, 0xC2] =
      some (.msg7 ⟨0x0A, 0x00, 0x14, 0x0A, 0x32, 0x8C, 0xC2⟩) ∧
    decodeRxf [0x59, 0x08, 0x0A, 0x00, 0x14, 0x01, 0x00, 0x0A, 0xD8] =
      some (.msg8 ⟨0x0A, 0x00, 0x14, 0x01, 0x00, 0x0A, 0xD8⟩) ∧
    decodeRxf [0x59, 0x09, 0x0A, 0x00, 0x14, 0xAA, 0xBB, 0x34, 0x4A] =
      some (.msgOther 9 ⟨0x0A, 0x00, 0x14, 0xAA, 0xBB, 0x34, 0x4A⟩) ∧
    decodeRxf [0x43, 0x09, 0x0A, 0x00, 0x14, 0xAA, 0xBB, 0x34, 0x4A] = none := by decide

/-- The frame of vector T1 (43 R211) decodes, by the layout of 30 R82, to the fields of its inputs. -/
theorem test_decode_txf :
    decodeTxf [0x43, 0xA5, 0x20, 0x52, 0x02, 0x01, 0x01, 0x35, 0x00, 0x7B, 0x10, 0x3C, 0x20, 0x80, 0xF4, 0x01, 0x05,
        0x00, 0xFF, 0x56, 0x34, 0x12, 0xC2, 0x01, 0xB8, 0x0B, 0x4C, 0x06] =
      some (.telemetry ⟨0xA5, 2, 0x52, 0x0102, 1, 0x35, 0x00, 0x7B, 0x10, 0x3C, 0x20, 0x80, 0x01F4, 0x05, 0x00, 0xFF,
        0x123456, 0x01C2, 0x0BB8⟩ 0x4C 0x06) := by decide

/-! ### The CRC engine -/

/-- Single steps of the reference CRC (file 95). -/
theorem test_crc_reference_steps :
    crc16StepRef 0xFFFF 0x59 = 0x7A7F ∧ crc16StepRef 0xFFFF 0x00 = 0x40BF ∧ crc16StepRef 0xFFFF 0xFF = 0x00FF ∧
    crc16StepRef 0x0000 0x01 = 0xC0C1 ∧ crc16StepRef 0x1234 0x56 = 0xE993 ∧ crc16StepRef 0xA5A5 0x5A = 0x40E5 ∧
    crc16StepRef 0x0000 0x59 = 0x3AC0 := by decide

/-- Frame CRCs (file 95): no byte, `59 00`, and 43 followed by 25 zeros. -/
theorem test_frame_crc :
    frameCrc refP [] = 0xFFFF ∧ frameCrc refP [0x59, 0x00] = 0xE03B ∧
    frameCrc refP [0x31, 0x32, 0x33, 0x34, 0x35, 0x36, 0x37, 0x38, 0x39] = 0x4B37 ∧
    frameCrc refP (0x43 :: List.replicate 25 0x00) = 0x983C := by decide

/-- Vector C2: CRC_INIT on an accumulator unwritten since reset. -/
theorem test_crc_init : field (exec .crcInit State.reset) State.crcAcc = some ⟨0xFFFF, true⟩ := by decide

/-- Vector C4: CRC_UPDATE on an accumulator unwritten since reset is FAULT_UNWRITTEN_CRC (40 R113). -/
theorem test_crc_update_unwritten : exec (.crcUpdate 0x00) State.reset = .fault .unwrittenCrc := by rfl

/-- Vector C5: `0x7A7F` and `0x00` give `0xE03B`. -/
theorem test_crc_update :
    field (crcUpdate refP 0x00 { State.reset with crcAcc := ⟨0x7A7F, true⟩ }) State.crcAcc =
      some ⟨0xE03B, true⟩ := by decide

/-! ### The frame receiver -/

/-- Vector R10's second byte: COLLECTING at index 1 after a mismatch, `ready` stays 1 (41 R133). -/
theorem test_rx_collects_over_a_flagged_frame :
    field (exec (.rxByte 0x01)
        { (holding [0x59, 0x04, 0x0A, 0x00, 0x14, 0x02, 0x08, 0x0B, 0x77]).setReceiver .collecting 1 with
          rxEnabled := true })
      (fun t => (Memory.read t.rxBuf 1, Memory.read t.rxBuf 2, t.rxIndex, t.ready)) =
      some (some 0x01, some 0x0A, 2, true) := by decide

/-- Vector R5: the ninth byte completes the frame (41 R134). -/
theorem test_rx_ninth_byte_completes :
    field (exec (.rxByte 0x77)
        { State.reset with
          rxState := .collecting, rxIndex := 8
          rxBuf := bufferFrom 0 [0x59, 0x01, 0x0A, 0x00, 0x14, 0x02, 0x08, 0x0B] })
      (fun t => (t.rxState, t.rxIndex, Memory.read t.rxBuf 8, t.ready && !t.rxEnabled)) =
      some (.idle, 0, some 0x77, true) := by decide

/-! ### The inbound decoder: one poll per vector of file 95 -/

/-- Vector D0. -/
theorem test_msg0 :
    pollOf [0x59, 0x00, 0x0A, 0x01, 0x14, 0x54, 0x01, 0xF4, 0xFC] [0, 1, 2, 3, 4] =
      some ([.lights 1, .cutoffStep 0x54, .persist], [0x0A, 1, 0, 0x14, 0x0154]) := by decide

/-- Vector D1. -/
theorem test_msg1 :
    pollOf [0x59, 0x01, 0x0A, 0x00, 0x14, 0x02, 0x08, 0x0B, 0x77] [0, 1, 2, 3, 5] =
      some ([.lights 0, .persist], [0x0A, 0, 0, 0x14, 0x0802]) := by decide

/-- Vector D2. -/
theorem test_msg2 :
    pollOf [0x59, 0x02, 0x0A, 0x02, 0x14, 0x19, 0x10, 0x00, 0x06] [2, 6, 7] =
      some ([.lights 0, .maxCurrent 0x10, .persist], [1, 0x19, 0x10]) := by decide

/-- Vector D3f: the unassigned bits of bytes 3 and 6 are ignored. -/
theorem test_msg3 :
    pollOf [0x59, 0x03, 0x1E, 0xFD, 0xFF, 0x02, 0xFC, 0x7A, 0x89] [0, 1, 2, 3, 8, 9, 10] =
      some ([.lights 1, .persist], [0x1E, 1, 0, 0xFF, 2, 0, 0]) := by decide

/-- Vector D4. -/
theorem test_msg4 :
    pollOf [0x59, 0x04, 0x0A, 0x00, 0x14, 0x14, 0x1E, 0x84, 0x8C] [11, 12] =
      some ([.lights 0, .persist], [0x14, 0x1E]) := by decide

/-- Vector D5. -/
theorem test_msg5 :
    pollOf [0x59, 0x05, 0x0A, 0x00, 0x14, 0x0A, 0x01, 0xCD, 0x35] [13, 14, 9] =
      some ([.lights 0, .persist], [0x0A, 0x01, 0]) := by decide

/-- Vector D6. -/
theorem test_msg6 :
    pollOf [0x59, 0x06, 0x0A, 0x00, 0x14, 0x41, 0x55, 0xFA, 0x09] [15, 16] =
      some ([.lights 0, .persist], [0x41, 0x55]) := by decide

/-- Vector D7b: a rate of 3 is replaced by the default, not clamped. -/
theorem test_msg7_substitutes :
    pollOf [0x59, 0x07, 0x0A, 0x00, 0x14, 0x03, 0x32, 0x8A, 0x92] [17, 18, 19] =
      some ([.lights 0, .persist], [50, 1953, 0x32]) := by decide

/-- Vector D7d: a rate of 100 is stored as it is. -/
theorem test_msg7_upper_bound :
    pollOf [0x59, 0x07, 0x0A, 0x00, 0x14, 0x64, 0x00, 0x21, 0x77] [17, 18, 19] =
      some ([.lights 0, .persist], [100, 976, 0]) := by decide

/-- Vector D8b: a whole byte is stored as the flag. -/
theorem test_msg8 :
    pollOf [0x59, 0x08, 0x0A, 0x00, 0x14, 0x02, 0x00, 0x0A, 0x28] [20, 21] =
      some ([.lights 0, .persist], [2, 0]) := by decide

/-- Vector DFF: a reserved ID writes the common fields only. -/
theorem test_msgOther :
    pollOf [0x59, 0xFF, 0x0A, 0x03, 0x14, 0xAA, 0xBB, 0x20, 0x98] [0, 1, 2, 3, 4, 5, 17, 18, 21] =
      some ([.lights 1, .persist], [0x0A, 1, 1, 0x14, 0, 0, 50, 1953, 0]) := by decide

/-- Vector DX2: a mismatch re-arms the channel, leaves `ready` set, writes no register and emits nothing. -/
theorem test_poll_mismatch :
    field (decodePoll refP (holding [0x59, 0x07, 0x0A, 0x00, 0x14, 0x0A, 0x32, 0x8C, 0xC3]))
      (fun t => (t.crcRx.value, t.ready, t.rxEnabled, t.cfg, t.output)) =
      some (0xC28C, true, true, CfgFile.reference, []) := by decide

/-- Vector DX6, `c[1] = 01` and `f[1] = 04`: the CRC view sees the second arrival, the field view the opening. -/
theorem test_poll_torn_views :
    field (decodePoll refP
        { holding [0x59, 0x04, 0x0A, 0x00, 0x14, 0x02, 0x08, 0x0B, 0x77] with
          rxEnabled := true
          inputs := { Inputs.quiet with arrivals := [0x59, 0x01], crcInstants := #v[0, 2, 0, 0, 0, 0, 0, 0, 0] } })
      (fun t => (t.crcRx.value, [11, 12, 5].map t.cfg.read, t.ready, t.rxIndex)) =
      some (0x770B, [0x02, 0x08, 0], false, 2) := by decide

/-! ### The outbound encoder -/

/-- Current scaling and voltage packing (file 95). -/
theorem test_curScale :
    [0, 1, 100, 309, 310, 1000, 1023, 1211, 39500, 65535].map curScale =
      [0x00, 0x00, 0x52, 0xFF, 0x00, 0x3A, 0x4C, 0xE8, 0x73, 0x73] := by decide

/-- Vector T1 (43 R211). -/
theorem test_telemetry_t1 :
    txFrame refP (buildPayload 0 telT1) =
      [0x43, 0xA5, 0x20, 0x52, 0x02, 0x01, 0x01, 0x35, 0x00, 0x7B, 0x10, 0x3C, 0x20, 0x80, 0xF4, 0x01, 0x05, 0x00,
        0xFF, 0x56, 0x34, 0x12, 0xC2, 0x01, 0xB8, 0x0B, 0x4C, 0x06] := by decide

/-- Vector T3: any non-zero `cfg[20]` selects the temperature. -/
theorem test_telemetry_t3 :
    (emitFrame refP (buildPayload 2 telT1) State.reset).crcTx = ⟨0xAEC5, true⟩ := by decide

/-- Vector T4. -/
theorem test_telemetry_t4 :
    txFrame refP (buildPayload 0 telT4) =
      [0x43, 0xFF, 0x30, 0x4C, 0xFF, 0xFF, 0x01, 0xFF, 0xEE] ++ List.replicate 17 0xFF ++ [0x29, 0x93] := by decide

/-- A send from reset emits 28 events, the first of them the start marker (43 R207). -/
theorem test_send :
    field (exec .sendTelemetry State.reset) (fun t => (t.output.length, t.output.head?)) =
      some (28, some (.tx 0x43)) := by decide

/-! ### The machine -/

/-- `0x500` offered at reset: the mark is set (30 R97), and the marked state is given no meaning (log 11). -/
theorem test_reserved_word_is_refused :
    (nextOf (step (State.reset.place (.cmd 0x500)))).map State.refusalMark = some (some .reservedOp) ∧
    step ((State.reset.place (.cmd 0x500)).mark .reservedOp) = .refused .reservedOp := ⟨by decide, rfl⟩

/-- A byte offered at reset is the first step's operation (log 7). -/
theorem test_first_step_runs_a_byte :
    field (step (State.reset.withFetchWord 16 0x059)) (fun t => (t.rxState, t.rxIndex, t.offers)) =
      some (.collecting, 1, []) := by decide

/-! ### Witnesses: states and operands that meet the hypotheses of the statements -/

/-- A frame of this message-ID and these bytes whose trailer is its own CRC under the machine's parameters. -/
def validFields (id assist b5 b6 : Byte) : RxFields where
  assist := assist
  flags := 0x01
  power := 0x14
  b5 := b5
  b6 := b6
  crcLo := lowByte (frameCrc machineParams [0x59, id, assist, 0x01, 0x14, b5, b6])
  crcHi := highByte (frameCrc machineParams [0x59, id, assist, 0x01, 0x14, b5, b6])

/-- The same with every bit of the trailer flipped. -/
def invalidFields (id assist b5 b6 : Byte) : RxFields :=
  { validFields id assist b5 b6 with
    crcLo := lowByte (~~~ frameCrc machineParams [0x59, id, assist, 0x01, 0x14, b5, b6])
    crcHi := highByte (~~~ frameCrc machineParams [0x59, id, assist, 0x01, 0x14, b5, b6]) }

theorem le16_bytes (h : Half) : le16 (lowByte h) (highByte h) = h := by
  rw [le16, ← half_eq_shift_or, half_lowByte_highByte]

/-- Meets `FrameValid` for every message-ID. -/
theorem witness_FrameValid (id assist b5 b6 : Byte) : FrameValid id (validFields id assist b5 b6) :=
  (le16_bytes _).symm

theorem witness_not_FrameValid (id assist b5 b6 : Byte) : ¬ FrameValid id (invalidFields id assist b5 b6) := by
  intro h
  have h2 : frameCrc machineParams [0x59, id, assist, 0x01, 0x14, b5, b6] =
      ~~~ frameCrc machineParams [0x59, id, assist, 0x01, 0x14, b5, b6] := h.trans (le16_bytes _)
  have h3 := congrArg (BitVec.getLsbD · 0) h2
  simp at h3

theorem witness_DecodeEncodeRoundTrip : (Instr.msgOther 9 (validFields 9 0 0 0)).wellFormed = true := rfl

theorem witness_CrcUpdateFoldsOneByte :
    (State.reset.setCrcAcc 0xFFFF).crcAcc.initialised = true ∧ State.reset.crcAcc.initialised = false := by decide

/-- The frame of 42 R179 (1) is valid under the reference step; bits 0 of byte 0 and 7 of byte 8 are in range. -/
theorem witness_ReferenceCrcDetectsSingleBitErrors :
    RefValid [0x59, 0x07, 0x0A, 0x00, 0x14, 0x0A, 0x32, 0x8C, 0xC2] ∧ (0 < 9 ∧ 0 < 8) ∧ (8 < 9 ∧ 7 < 8) := by
  refine ⟨⟨?_, ?_⟩, ?_⟩ <;> decide

/-- One state per clause of the receiver's table, at both ends of the index's range. -/
theorem witness_RxByteFollowsTheReceiver :
    State.reset.disarmReceiver.rxEnabled = false ∧
    (State.reset.rxEnabled = true ∧ State.reset.rxState = .idle ∧ (0x59 : Byte) = 0x59 ∧ (0x43 : Byte) ≠ 0x59) ∧
    (∀ i : BitVec 4, (State.reset.setReceiver .collecting i).rxEnabled = true ∧
      (State.reset.setReceiver .collecting i).rxState = .collecting) ∧
    (State.reset.setReceiver .collecting 0).rxIndex.toNat < 8 ∧
    (State.reset.setReceiver .collecting 7).rxIndex.toNat < 8 ∧
    (State.reset.setReceiver .collecting 8).rxIndex.toNat = 8 := by
  refine ⟨rfl, ⟨rfl, rfl, rfl, by decide⟩, fun _ => ⟨rfl, rfl⟩, ?_, ?_, ?_⟩ <;> decide

theorem witness_RxByteOutsideTheBufferFaults :
    (State.reset.setReceiver .collecting 9).rxEnabled = true ∧
    (State.reset.setReceiver .collecting 9).rxState = .collecting ∧
    9 ≤ (State.reset.setReceiver .collecting 9).rxIndex.toNat ∧
    9 ≤ (State.reset.setReceiver .collecting 15).rxIndex.toNat := by decide

theorem witness_NineBytesFromAStartMarkerMakeAFrame :
    State.reset.rxEnabled = true ∧ State.reset.rxState = .idle ∧ (∀ b, b ∈ ([0x41] : List Byte) → b ≠ 0x59) ∧
    ([0x59, 0x00, 0x0A, 0x00, 0x14, 0xAA, 0xBB, 0x34] : List Byte).length = 8 ∧ 9 < ([0x41] : List Byte).length + 9 :=
  ⟨rfl, rfl, by decide, rfl, by decide⟩

/-- A poll inside which nothing arrives, and an operation that is neither a byte nor a poll. -/
theorem witness_OnlyBytesMoveTheReceiver :
    exec .decodePoll State.reset = .next State.reset ∧ (∀ b, Instr.decodePoll ≠ .rxByte b) ∧
    State.reset.inputs.arrivals = [] ∧ exec .crcInit State.reset = .next (State.reset.setCrcAcc 0xFFFF) :=
  ⟨rfl, fun _ h => (by cases h), rfl, rfl⟩

theorem witness_PollWithoutAFrameDoesNothing :
    setupWellFormed State.reset.setup = true ∧ State.reset.ready = false := by decide

/-- A state with this frame complete in the buffer, under ATOMIC. -/
def atomicHolding (id : Byte) (f : RxFields) : State :=
  { State.reset.holdFrame (rxfBytes id f) with setup := { Setup.reference with decodeView := .atomic } }

/-- Vector DX6: two bytes arrive inside the interval of a poll with the channel enabled. -/
def dx6 : State :=
  { holding [0x59, 0x04, 0x0A, 0x00, 0x14, 0x02, 0x08, 0x0B, 0x77] with
    rxEnabled := true
    inputs := { Inputs.quiet with arrivals := [0x59, 0x01] } }

/-- Both clauses: an ATOMIC poll, and a PREEMPTIBLE one with an interval. -/
theorem witness_PollCommitsItsViews (f : RxFields) :
    (setupWellFormed (atomicHolding 1 f).setup = true ∧ (atomicHolding 1 f).ready = true ∧
      (atomicHolding 1 f).setup.decodeView = .atomic) ∧
    setupWellFormed dx6.setup = true ∧ dx6.ready = true ∧ dx6.setup.decodeView = .preemptible ∧
    ∃ instants u, runArrivals dx6.inputs.arrivals dx6 = .ok (instants, u) :=
  ⟨⟨rfl, rfl, rfl⟩, rfl, rfl, rfl, _, _, rfl⟩

/-- Vector DX6's shape with a frame that is valid under the machine's own CRC step: the field view reads the
message-ID after the second arrival, so the two views differ and the frame still matches. -/
def torn : State :=
  { State.reset.holdFrame (rxfBytes 4 (validFields 4 0x0A 0x02 0x08)) with
    rxEnabled := true
    inputs := { Inputs.quiet with arrivals := [0x59, 0x01], fieldInstants := #v[2, 0, 0, 0, 0, 0] } }

/-- The match clause of a pre-emptible poll, with views that disagree on the message-ID. -/
theorem witness_PollCommitsItsViews_torn :
    setupWellFormed torn.setup = true ∧ torn.ready = true ∧ torn.setup.decodeView = .preemptible ∧
    ∃ instants u, runArrivals torn.inputs.arrivals torn = .ok (instants, u) ∧
      (viewAt machineParams instants torn.inputs).id = 1 ∧
      (viewAt machineParams instants torn.inputs).covered = covered 4 (validFields 4 0x0A 0x02 0x08) ∧
      frameCrc machineParams (viewAt machineParams instants torn.inputs).covered =
        le16 (viewAt machineParams instants torn.inputs).crcLo (viewAt machineParams instants torn.inputs).crcHi :=
  ⟨rfl, rfl, rfl, _, _, rfl, rfl, rfl, witness_FrameValid 4 0x0A 0x02 0x08⟩

/-- The registers that get a value are the ID's own. -/
theorem test_own_values_are_of_own_registers (rampDefault id b5 b6 : Byte) :
    (ownValues rampDefault id b5 b6).map Prod.fst = ownRegisters id := by
  unfold ownValues ownRegisters
  split <;> simp_all

/-- The second arrival of DX6 writes offset 1, so both clauses about an arrival's write are met. -/
theorem witness_PollReadsValuesOfItsInterval :
    ∃ instants u t t' ms, runArrivals [0x59, 0x01] dx6 = .ok (instants, u) ∧
      ([0x59, 0x01] : List Byte) = [0x59] ++ 0x01 :: [] ∧ runArrivals [0x59] dx6 = .ok (ms, t) ∧
      receiveByte 0x01 t = .ok t' ∧ t'.rxBuf = Memory.write t.rxBuf 1 0x01 := ⟨_, _, _, _, _, rfl, rfl, rfl, rfl, rfl⟩

theorem witness_DisabledChannelMakesPollsAtomic (f : RxFields) :
    (atomicHolding 1 f).rxEnabled = false ∧
    ∃ t, exec .decodePoll { atomicHolding 1 f with
      setup := { (atomicHolding 1 f).setup with decodeView := .atomic } } = .next t := ⟨rfl, _, rfl⟩

theorem witness_PollRunsTheBufferedMessage (f : RxFields) :
    (atomicHolding 1 f).ready = true ∧ Holds (atomicHolding 1 f) (rxfBytes 1 f) ∧
    decode (.rxf (rxfBytes 1 f)) = .ok (.msg1 f) ∧ setupWellFormed (atomicHolding 1 f).setup = true ∧
    (atomicHolding 1 f).setup.decodeView = .atomic := by
  refine ⟨rfl, ⟨rfl, fun a ha => ?_⟩, rfl, rfl, rfl⟩
  have : a < 9 := ha
  interval_cases a <;> rfl

/-- The poll of a frame whose trailer is wrong leaves `ready` set. -/
theorem poll_of_invalid_frame :
    exec .decodePoll (atomicHolding 1 (invalidFields 1 0x0A 0x02 0x08)) =
      .next (((atomicHolding 1 (invalidFields 1 0x0A 0x02 0x08)).setCrcRx
        (frameCrc machineParams [0x59, 1, 0x0A, 0x01, 0x14, 0x02, 0x08])).armReceiver) := by
  have h := witness_not_FrameValid 1 0x0A 0x02 0x08
  rw [FrameValid, le16, ← half_eq_shift_or] at h
  exact congrArg Host.Outcome.next (if_neg h)

theorem witness_RepeatedMismatchChangesNothing :
    setupWellFormed (atomicHolding 1 (invalidFields 1 0x0A 0x02 0x08)).setup = true ∧
    (atomicHolding 1 (invalidFields 1 0x0A 0x02 0x08)).ready = true ∧
    (atomicHolding 1 (invalidFields 1 0x0A 0x02 0x08)).inputs.arrivals = [] ∧
    ∃ t, exec .decodePoll (atomicHolding 1 (invalidFields 1 0x0A 0x02 0x08)) = .next t ∧ t.ready = true :=
  ⟨rfl, rfl, rfl, _, poll_of_invalid_frame, rfl⟩

theorem reset_inv : State.reset.Inv where
  receiver := rfl
  buffer := ⟨rfl, fun _ h => (by cases h), fun h => (by cases h), fun h => (by cases h)⟩
  handoff := fun h => by cases h

theorem witness_PollNeverStops : State.reset.Inv ∧ setupWellFormed State.reset.setup = true := ⟨reset_inv, rfl⟩

theorem witness_MsgSevenStoresRampAndCruise : setupWellFormed State.reset.setup = true ∧
    FrameValid 7 (validFields 7 0x0A 4 0) ∧ FrameValid 7 (validFields 7 0x0A 3 0) ∧
    FrameValid 7 (validFields 7 0x0A 100 0) ∧ FrameValid 7 (validFields 7 0x0A 101 0) :=
  ⟨rfl, witness_FrameValid _ _ _ _, witness_FrameValid _ _ _ _, witness_FrameValid _ _ _ _, witness_FrameValid _ _ _ _⟩

theorem witness_ReservedMessageAppliesCommonFieldsOnly :
    9 ≤ (9 : Byte).toNat ∧ 9 ≤ (255 : Byte).toNat ∧ FrameValid 9 (validFields 9 0x0A 0xAA 0xBB) :=
  ⟨by decide, by decide, witness_FrameValid _ _ _ _⟩

theorem witness_MatchingFrameEventOrder :
    FrameValid 0 (validFields 0 0x0A 0x54 0x01) ∧ setupWellFormed State.reset.setup = true ∧
    ∃ t, exec (message 0 (validFields 0 0x0A 0x54 0x01)) State.reset = .next t :=
  ⟨witness_FrameValid _ _ _ _, rfl, _, rfl⟩

theorem witness_ConsecutiveMessagesKeepTheirOwnFields :
    (1 : Byte) ≠ 2 ∧ FrameValid 1 (validFields 1 0x0A 0x02 0x08) ∧ FrameValid 2 (validFields 2 0x0B 0x19 0x10) ∧
    setupWellFormed State.reset.setup = true ∧
    ∃ t u, exec (message 1 (validFields 1 0x0A 0x02 0x08)) State.reset = .next t ∧
      exec (message 2 (validFields 2 0x0B 0x19 0x10)) t = .next u :=
  ⟨by decide, witness_FrameValid _ _ _ _, witness_FrameValid _ _ _ _, rfl, _, _, rfl, rfl⟩

theorem witness_RampStepIsTheTruncatedQuotient : rampInRange 4 = true ∧ rampInRange 100 = true := by decide

theorem witness_SentFrameDecodesToTheInputs :
    (∃ t, exec .sendTelemetry State.reset = .next t) ∧ State.reset.cfg.temperatureLimitEnabled = 0 ∧
    ∃ t, exec .sendTelemetry { State.reset with cfg := { CfgFile.reference with temperatureLimitEnabled := 2 } } =
      .next t := ⟨⟨_, rfl⟩, rfl, _, rfl⟩

theorem witness_SendCommutesWithRxByte :
    ∃ t u, exec (.rxByte 0x59) State.reset = .next t ∧ exec .sendTelemetry State.reset = .next u := ⟨_, _, rfl, rfl⟩

theorem witness_OperationsWriteOnlyWhatTheyMay :
    (∃ t, exec (.rxByte 0x59) State.reset = .next t) ∧
    (setupWellFormed State.reset.setup = true ∧ ∃ t, exec .decodePoll State.reset = .next t) ∧
    (∃ t, exec .sendTelemetry State.reset = .next t) ∧ (∃ t, exec .crcInit State.reset = .next t) ∧
    ∃ t, exec (.crcUpdate 0) (State.reset.setCrcAcc 0xFFFF) = .next t :=
  ⟨⟨_, rfl⟩, ⟨rfl, _, rfl⟩, ⟨_, rfl⟩, ⟨_, rfl⟩, _, rfl⟩

/-- Meets the hypotheses of StepKeepsTheInvariant, OutputIsOnlyAppendedTo and StepKeepsTheRampPair. -/
theorem witness_StepKeepsTheInvariant :
    (State.reset.place (.cmd 0x059)).Inv ∧ (State.reset.place (.cmd 0x059)).RampInv ∧
    ∃ t, step (State.reset.place (.cmd 0x059)) = .next t := by
  refine ⟨⟨rfl, ⟨rfl, fun _ h => (by cases h), fun h => (by cases h), fun h => (by cases h)⟩, fun h => (by cases h)⟩,
    ⟨?_, ?_⟩, _, rfl⟩ <;> decide

theorem witness_CoreOperationsNeverStop :
    (State.reset.place (.cmd 0x100)).Inv ∧ (State.reset.place (.cmd 0x100)).Driven := by
  refine ⟨⟨rfl, ⟨rfl, fun _ h => (by cases h), fun h => (by cases h), fun h => (by cases h)⟩, fun h => (by cases h)⟩,
    ⟨rfl, rfl, fun o ho => ?_⟩⟩
  have h : o.word = 0x100 := by
    have := List.mem_singleton.mp ho
    rw [this]
  rw [h]
  decide

/-- A poll of a valid frame changes a configuration register. -/
theorem witness_OnlyAMatchingPollWritesConfiguration :
    ∃ t, step ((atomicHolding 1 (validFields 1 0x0A 0x02 0x08)).place (.cmd 0x100)) = .next t ∧
      t.cfg ≠ ((atomicHolding 1 (validFields 1 0x0A 0x02 0x08)).place (.cmd 0x100)).cfg := by
  have h := witness_FrameValid 1 0x0A 0x02 0x08
  rw [FrameValid, le16, ← half_eq_shift_or] at h
  refine ⟨_, congrArg Host.Outcome.next (if_pos h), fun hc => ?_⟩
  have h2 := congrArg CfgFile.assistLevel hc
  exact absurd h2 (by decide : (0x0A : Byte) ≠ 0)

theorem witness_DisabledChannelKeepsTheBuffer :
    (State.reset.disarmReceiver.place (.cmd 0x059)).rxEnabled = false ∧
    ∃ t, step (State.reset.disarmReceiver.place (.cmd 0x059)) = .next t := ⟨rfl, _, rfl⟩

/-- A poll of a frame whose trailer is wrong, at the channel's first disabled moment. -/
theorem witness_FlaggedAndArmedComesFromAMismatch :
    ∃ t, step ((atomicHolding 1 (invalidFields 1 0x0A 0x02 0x08)).place (.cmd 0x100)) = .next t ∧ t.ready = true ∧
      t.rxEnabled = true ∧
      ¬ (((atomicHolding 1 (invalidFields 1 0x0A 0x02 0x08)).place (.cmd 0x100)).ready = true ∧
        ((atomicHolding 1 (invalidFields 1 0x0A 0x02 0x08)).place (.cmd 0x100)).rxEnabled = true) := by
  have h := witness_not_FrameValid 1 0x0A 0x02 0x08
  rw [FrameValid, le16, ← half_eq_shift_or] at h
  exact ⟨_, congrArg Host.Outcome.next (if_neg h), rfl, rfl, fun hc => (by cases hc.2)⟩

theorem witness_StepRunsTheOfferedInstruction :
    State.reset.refusalMark = none ∧ setupWellFormed State.reset.setup = true ∧
    (State.reset.place (.cmd 0x100)).offers = ⟨0x100, State.reset.inputs⟩ :: [] ∧
    decode (.cmd 0x100) = .ok .decodePoll := ⟨rfl, rfl, rfl, rfl⟩

/-- Words at the ends of both refused ranges. -/
theorem witness_RefusedWordSetsTheMarkOnly :
    (State.reset.place (.cmd 0x500)).refusalMark = none ∧
    setupWellFormed (State.reset.place (.cmd 0x500)).setup = true ∧
    (∀ w, (State.reset.place (.cmd w)).offers = ⟨w, State.reset.inputs⟩ :: []) ∧
    5 ≤ ((0x500 : CmdWord).extractLsb' 8 3).toNat ∧ 5 ≤ ((0x7FF : CmdWord).extractLsb' 8 3).toNat ∧
    (1 ≤ ((0x101 : CmdWord).extractLsb' 8 3).toNat ∧ (0x101 : CmdWord).extractLsb' 0 8 ≠ 0) ∧
    (((0x3FF : CmdWord).extractLsb' 8 3).toNat ≤ 3 ∧ (0x3FF : CmdWord).extractLsb' 0 8 ≠ 0) := by
  refine ⟨rfl, rfl, fun _ => rfl, ?_, ?_, ?_, ?_⟩ <;> decide

/-- A mark, configurations just outside `[4, 100]`, and silence. -/
theorem witness_MarkConfigurationAndSilenceComeFirst :
    (State.reset.mark .badConfig).refusalMark = some .badConfig ∧
    (∀ r, (State.resetWith ⟨.atomic, r⟩ CfgFile.reference).refusalMark = none) ∧
    (State.resetWith ⟨.atomic, 3⟩ CfgFile.reference).setup.rampDefault.toNat < 4 ∧
    100 < (State.resetWith ⟨.atomic, 101⟩ CfgFile.reference).setup.rampDefault.toNat ∧
    State.reset.refusalMark = none ∧ setupWellFormed State.reset.setup = true ∧ State.reset.offers = [] :=
  ⟨rfl, fun _ => rfl, by decide, by decide, rfl, rfl, rfl⟩

/-- A command word, a receive frame and a transmit frame that decode. -/
theorem witness_PlacedInstructionRunsNext (f : RxFields) :
    State.reset.refusalMark = none ∧ setupWellFormed State.reset.setup = true ∧
    decode (.cmd 0x100) = .ok .decodePoll ∧ decode (.rxf (rxfBytes 1 f)) = .ok (.msg1 f) ∧
    ∃ p lo hi, decode (.txf (0x43 :: List.replicate 27 0)) = .ok (.telemetry p lo hi) :=
  ⟨rfl, rfl, rfl, rfl, _, _, _, rfl⟩

/-- A frame of each format that decodes, an armed IDLE receiver, and a collecting one at both ends of its index. -/
theorem witness_StartMarkerTellsTheFormatsApart (f : RxFields) :
    decode (.rxf (rxfBytes 1 f)) = .ok (.msg1 f) ∧
    (∃ i, decode (.txf (0x43 :: List.replicate 27 0)) = .ok i) ∧
    (State.reset.rxEnabled = true ∧ State.reset.rxState = .idle) ∧
    (∀ i : BitVec 4, (State.reset.setReceiver .collecting i).rxEnabled = true ∧
      (State.reset.setReceiver .collecting i).rxState = .collecting ∧
      (State.reset.setReceiver .collecting i).rxIndex = i) ∧
    (0 : BitVec 4).toNat < 9 ∧ (8 : BitVec 4).toNat < 9 ∧
    ([0x00, 0x0A, 0x00, 0x14, 0xAA, 0xBB, 0x34] : List Byte).length = 7 :=
  ⟨rfl, ⟨_, rfl⟩, ⟨rfl, rfl⟩, fun _ => ⟨rfl, rfl, rfl⟩, by decide, by decide, rfl⟩

/-- States that agree on what the receiver looks at, while one has a frame ready and a full buffer and the other none. -/
theorem witness_RxByteLooksAtNothingElse :
    dx6.rxState = State.reset.rxState ∧ dx6.rxIndex = State.reset.rxIndex ∧ dx6.rxEnabled = State.reset.rxEnabled ∧
    dx6.ready = true ∧ State.reset.ready = false ∧ (∃ t, exec (.rxByte 0x59) State.reset = .next t) ∧
    (State.reset.setReceiver .collecting 8).rxState = .collecting ∧
    ∃ t, exec (.rxByte 0x01) (State.reset.setReceiver .collecting 8) = .next t :=
  ⟨rfl, rfl, rfl, rfl, rfl, ⟨_, rfl⟩, rfl, _, rfl⟩

end Sys2Proof.Tests
end

section
/-! The command words without an operation (30 R97, R98), and the step that meets one (30 R104). -/

namespace Sys2Proof.Machine

/-- Op 101, 110 or 111 is reserved (30 R97). -/
theorem decodeCmd_of_reserved_op {w : CmdWord} (h : 5 ≤ (w.extractLsb' 8 3).toNat) :
    decodeCmd w = .error .reservedOp := by
  have hop : (w.extractLsb' 8 3).toNat = 5 ∨ (w.extractLsb' 8 3).toNat = 6 ∨ (w.extractLsb' 8 3).toNat = 7 := by
    have hlt : (w.extractLsb' 8 3).toNat < 2 ^ 3 := BitVec.isLt _
    omega
  rcases hop with hop | hop | hop <;> simp only [decodeCmd, hop]

/-- An operation without an operand refuses data other than 0 (30 R98). -/
theorem withoutData_of_ne_zero {data : Byte} (i : Instr) (h : data ≠ 0) :
    withoutData data i = .error .nonzeroData := if_neg h

/-- Op 001, 010 or 011 with data other than 0 is refused (30 R98). -/
theorem decodeCmd_of_nonzero_data {w : CmdWord} (h1 : 1 ≤ (w.extractLsb' 8 3).toNat)
    (h3 : (w.extractLsb' 8 3).toNat ≤ 3) (hd : w.extractLsb' 0 8 ≠ 0) : decodeCmd w = .error .nonzeroData := by
  have hop : (w.extractLsb' 8 3).toNat = 1 ∨ (w.extractLsb' 8 3).toNat = 2 ∨ (w.extractLsb' 8 3).toNat = 3 := by
    omega
  rcases hop with hop | hop | hop <;> simp only [decodeCmd, hop, withoutData_of_ne_zero _ hd]

/-- A step that is offered a word without an operation only sets the mark (30 R104). -/
theorem step_of_refused_word {s : State} {o : Offer} {rest : List Offer} {e : CmdError}
    (hm : s.refusalMark = none) (hw : setupWellFormed s.setup = true) (ho : s.offers = o :: rest)
    (hd : decodeCmd o.word = .error e) : step s = .next (s.mark (refusalOf e)) := by
  simp only [step, nextOp, hm, hw, ho, hd, if_true, refuse]

/-- Settles O51: the two ranges of ops are the two ways the decoder refuses a word, and a refused word only sets the
mark. -/
theorem refusedWordSetsTheMarkOnly : Obligations.RefusedWordSetsTheMarkOnly := by
  intro s o rest hm hw ho
  refine ⟨fun hop => ?_, fun ⟨h1, h3, hd⟩ => ?_⟩
  · exact step_of_refused_word hm hw ho (decodeCmd_of_reserved_op hop)
  · exact step_of_refused_word hm hw ho (decodeCmd_of_nonzero_data h1 h3 hd)

end Sys2Proof.Machine
end

section
/-! The byte that begins a frame that decodes (30 R81, R82, R90). -/

namespace Sys2Proof.Machine

/-- The layout of a receive frame reads only bytes that begin with its start marker (30 R81). -/
theorem head_of_decodeRxf {bytes : List Byte} {i : Instr} (h : decodeRxf bytes = some i) :
    bytes.head? = some rxStart := by
  unfold decodeRxf at h
  split at h
  · split at h
    next hstart => rw [hstart]; rfl
    next => cases h
  · cases h

/-- The layout of a transmit frame reads only bytes that begin with its start marker (30 R82). -/
theorem head_of_decodeTxf {bytes : List Byte} {i : Instr} (h : decodeTxf bytes = some i) :
    bytes.head? = some txStart := by
  unfold decodeTxf at h
  split at h
  · split at h
    next hstart => rw [hstart]; rfl
    next => cases h
  · cases h

/-- A receive frame that decodes is read by its layout. -/
theorem decodeRxf_of_decode {bytes : List Byte} {i : Instr} (h : decode (.rxf bytes) = .ok i) :
    decodeRxf bytes = some i := by
  cases hd : decodeRxf bytes with
  | none => simp only [decode, hd] at h; cases h
  | some j => simp only [decode, hd] at h; rw [Except.ok.inj h]

/-- A transmit frame that decodes is read by its layout. -/
theorem decodeTxf_of_decode {bytes : List Byte} {i : Instr} (h : decode (.txf bytes) = .ok i) :
    decodeTxf bytes = some i := by
  cases hd : decodeTxf bytes with
  | none => simp only [decode, hd] at h; cases h
  | some j => simp only [decode, hd] at h; rw [Except.ok.inj h]

end Sys2Proof.Machine
end

section
/-! RX_BYTE as an instruction, and the bytes of a frame collected one after another (41 R131 to R134). -/

namespace Sys2Proof.Machine

open Sys2Proof.Claims

/-! ### A run of bytes in the buffer -/

/-- The buffer after bytes have been stored one after another from offset `a` on. -/
def Memory.writeFrom (m : Memory) (a : Nat) : List Byte → Memory
  | [] => m
  | b :: rest => Memory.writeFrom (Memory.write m a b) (a + 1) rest

/-- Bytes stored from an offset on leave the offsets before it alone. -/
theorem Memory.read_writeFrom_below (m : Memory) {a x : Nat} (bytes : List Byte) (h : x < a) :
    Memory.read (Memory.writeFrom m a bytes) x = Memory.read m x := by
  induction bytes generalizing m a with
  | nil => rfl
  | cons b rest ih => rw [Memory.writeFrom, ih _ (by omega), Memory.read_write_other m b (by omega)]

/-- Bytes stored from an offset on are read back in their order. -/
theorem Memory.read_writeFrom_add (m : Memory) (a : Nat) (bytes : List Byte) {k : Nat} (h : k < bytes.length) :
    Memory.read (Memory.writeFrom m a bytes) (a + k) = bytes[k]? := by
  induction bytes generalizing m a k with
  | nil => cases h
  | cons b rest ih =>
    cases k with
    | zero => simp [Memory.writeFrom, Memory.read_writeFrom_below]
    | succ k =>
      have hk : k < rest.length := by simpa using h
      rw [Memory.writeFrom, show a + (k + 1) = a + 1 + k by omega, ih _ _ hk, List.getElem?_cons_succ]

/-- A buffer into which nine bytes have been stored from offset 0 on holds them. -/
theorem holds_of_rxBuf_eq_writeFrom {t : State} {m : Memory} {bytes : List Byte} (hlen : bytes.length = rxFrameLen)
    (ht : t.rxBuf = Memory.writeFrom m 0 bytes) : Holds t bytes := by
  refine ⟨hlen, fun a ha => ?_⟩
  have hread := Memory.read_writeFrom_add m 0 bytes (hlen ▸ ha)
  rwa [Nat.zero_add, ← ht] at hread

/-! ### RX_BYTE as an instruction -/

/-- Where the receiver takes the byte, the instruction answers its state. -/
theorem exec_rxByte_of_ok {b : Byte} {s t : State} (h : receiveByte b s = .ok t) : exec (.rxByte b) s = .next t := by
  simp only [exec, execRxByte, h, outcomeOf]

/-- An instruction that answers a next state hands it to the instructions after it. -/
theorem runInstrs_cons_of_next {i : Instr} {s t : State} (rest : List Instr) (h : exec i s = .next t) :
    runInstrs (i :: rest) s = runInstrs rest t := by
  simp only [runInstrs, h]

/-- A byte taken at the last index completes the frame (41 R134). -/
theorem exec_rxByte_last (b : Byte) {s : State} (he : s.rxEnabled = true) (hs : s.rxState = .collecting)
    (hi : s.rxIndex.toNat = 8) :
    exec (.rxByte b) s = .next (s.setRxBuf (Memory.write s.rxBuf s.rxIndex.toNat b)).completeFrame := by
  have hlast : s.rxIndex + 1 = 9 := by bv_omega
  have hdata := receiveByte_data b he hs (by rw [hi]; decide)
  rw [if_pos hlast] at hdata
  exact exec_rxByte_of_ok hdata

/-- A byte taken at an earlier index is stored there, and the frame goes on (41 R133). -/
theorem exec_rxByte_middle (b : Byte) {s : State} (he : s.rxEnabled = true) (hs : s.rxState = .collecting)
    (hi : s.rxIndex.toNat < 8) :
    exec (.rxByte b) s =
      .next ((s.setRxBuf (Memory.write s.rxBuf s.rxIndex.toNat b)).setReceiver .collecting (s.rxIndex + 1)) := by
  have hmore : ¬ s.rxIndex + 1 = 9 := by bv_omega
  have hdata := receiveByte_data b he hs (Nat.lt_succ_of_lt hi)
  rw [if_neg hmore] at hdata
  exact exec_rxByte_of_ok hdata

/-! ### The rest of a frame, and a whole one -/

/-- In COLLECTING, as many bytes as the frame lacks are stored from the index on, whatever they are, and complete it. -/
theorem runInstrs_rest_of_frame (b : Byte) (rest : List Byte) {s : State} (he : s.rxEnabled = true)
    (hs : s.rxState = .collecting) (hlen : s.rxIndex.toNat + rest.length = 8) :
    runInstrs ((b :: rest).map .rxByte) s =
      .next (s.setRxBuf (Memory.writeFrom s.rxBuf s.rxIndex.toNat (b :: rest))).completeFrame := by
  induction rest generalizing b s with
  | nil => exact runInstrs_cons_of_next [] (exec_rxByte_last b he hs hlen)
  | cons c rest ih =>
    rw [List.length_cons] at hlen
    have hindex : (s.rxIndex + 1).toNat = s.rxIndex.toNat + 1 := by bv_omega
    have hfirst := exec_rxByte_middle b he hs (by omega)
    have hrest := ih c
      (s := (s.setRxBuf (Memory.write s.rxBuf s.rxIndex.toNat b)).setReceiver .collecting (s.rxIndex + 1))
      he rfl (by rw [State.setReceiver_rxIndex, hindex]; omega)
    rw [State.setReceiver_rxIndex, hindex] at hrest
    exact (runInstrs_cons_of_next _ hfirst).trans hrest

/-- From IDLE with the channel enabled, a start byte and eight further bytes, whatever they are, are one complete
frame (41 R132 to R134). -/
theorem runInstrs_frame (rest : List Byte) {s : State} (he : s.rxEnabled = true) (hs : s.rxState = .idle)
    (hlen : rest.length = 8) :
    runInstrs ((rxStart :: rest).map .rxByte) s =
      .next (s.setRxBuf (Memory.writeFrom s.rxBuf 0 (rxStart :: rest))).completeFrame := by
  obtain _ | ⟨b, rest⟩ := rest
  · cases hlen
  · have hrest := runInstrs_rest_of_frame b rest
      (s := (s.setRxBuf (Memory.write s.rxBuf 0 rxStart)).setReceiver .collecting 1)
      he rfl (by rw [List.length_cons] at hlen; rw [State.setReceiver_rxIndex]; bv_omega)
    exact (runInstrs_cons_of_next _ (exec_rxByte_of_ok (receiveByte_start he hs))).trans hrest

end Sys2Proof.Machine
end

section
/-! What the start markers mean to the receiver (30 R90, 41 R137). -/

namespace Sys2Proof.Machine

open Sys2Proof.Claims

/-- In IDLE with the channel enabled exactly the start byte makes the receiver collect; any other is noise and stores
nothing (41 R132, R135). -/
theorem exec_rxByte_idle (b : Byte) {s : State} (he : s.rxEnabled = true) (hs : s.rxState = .idle) :
    ∃ t, exec (.rxByte b) s = .next t ∧ (t.rxState = .collecting ↔ b = rxStart) ∧
      (b ≠ rxStart → t.rxIndex = 0 ∧ t.rxBuf = s.rxBuf) := by
  by_cases hb : b = rxStart
  · subst hb
    exact ⟨_, exec_rxByte_of_ok (receiveByte_start he hs), by simp, by simp⟩
  · exact ⟨_, exec_rxByte_of_ok (receiveByte_noise he hs hb), by simp [hb], by simp⟩

/-- In COLLECTING any byte is stored at the index and changes no other byte; the frame goes on or, at index 8,
completes (41 R133, R134). -/
theorem exec_rxByte_collecting (b : Byte) {s : State} (he : s.rxEnabled = true) (hs : s.rxState = .collecting)
    (hi : s.rxIndex.toNat < 9) :
    ∃ t, exec (.rxByte b) s = .next t ∧ t.rxBuf = Memory.write s.rxBuf s.rxIndex.toNat b ∧
      if s.rxIndex = 8 then t.rxState = .idle ∧ t.rxIndex = 0 ∧ t.ready = true ∧ t.rxEnabled = false
      else t.rxState = .collecting ∧ t.rxIndex.toNat = s.rxIndex.toNat + 1 ∧ t.ready = s.ready ∧
        t.rxEnabled = true := by
  split
  case isTrue hlast =>
    exact ⟨_, exec_rxByte_last b he hs (by rw [hlast]; rfl), rfl, rfl, rfl, rfl, rfl⟩
  case isFalse hmore =>
    have hindex : (s.rxIndex + 1).toNat = s.rxIndex.toNat + 1 := by bv_omega
    exact ⟨_, exec_rxByte_middle b he hs (by bv_omega), rfl, rfl, hindex, rfl, he⟩

/-- Settles O54: the decoder reads the marker of each format; the receiver takes up only `0x59` in IDLE and stores any
byte in COLLECTING, so a second `0x59` is byte 1 of the one frame. -/
theorem startMarkerTellsTheFormatsApart : Obligations.StartMarkerTellsTheFormatsApart := by
  refine ⟨fun _ _ h => head_of_decodeRxf (decodeRxf_of_decode h),
    fun _ _ h => head_of_decodeTxf (decodeTxf_of_decode h), fun b s he hs => ?idle,
    fun b s _ he hs hi => ?collecting, fun rest s he hs hlen => ?frame⟩
  case idle =>
    obtain ⟨t, hexec, hstate, hnoise⟩ := exec_rxByte_idle b he hs
    refine ⟨t, hexec, hstate, fun hb => ?_⟩
    obtain ⟨hindex, hbuf⟩ := hnoise (by rw [hb]; decide)
    exact ⟨hindex, fun a => by rw [hbuf]⟩
  case collecting =>
    obtain ⟨t, hexec, hbuf, hnext⟩ := exec_rxByte_collecting b he hs hi
    refine ⟨t, hexec, ?_, fun a ha => ?_, hnext⟩
    · rw [hbuf, Memory.read_write_same]
    · rw [hbuf, Memory.read_write_other _ b ha]
  case frame =>
    have hrun := runInstrs_frame (rxStart :: rest) he hs (by rw [List.length_cons, hlen])
    refine ⟨_, hrun, holds_of_rxBuf_eq_writeFrom ?_ rfl, rfl, rfl, rfl⟩
    rw [List.length_cons, List.length_cons, hlen]
    rfl

end Sys2Proof.Machine
end

section
/-! CRC_INIT as an instruction (40 R110). -/

namespace Sys2Proof.Machine

/-- CRC_INIT sets `crc_acc` to the seed of the CRC, whatever it held (40 R110). -/
theorem exec_crcInit (s : State) : exec .crcInit s = .next (s.setCrcAcc crcSeed) := rfl

/-- Settles O6: the word decodes to CRC_INIT, and seeding the accumulator is the only update it makes. -/
theorem crcInitSeedsTheAccumulator : Obligations.CrcInitSeedsTheAccumulator := by
  refine ⟨?decodes, fun s => ?seeds⟩
  case decodes => decide
  case seeds => exact exec_crcInit s

end Sys2Proof.Machine
end

section
/-! What RX_BYTE does not look at: `ready`, the bytes stored so far and, within a frame, the byte itself (41 R136). -/

namespace Sys2Proof.Machine

open Sys2Proof.Claims

/-! ### The two updates in COLLECTING, one equation each -/

/-- In COLLECTING the byte that takes the index to 9 is stored and completes the frame (41 R134). -/
theorem receiveByte_completes (b : Byte) {s : State} (he : s.rxEnabled = true) (hs : s.rxState = .collecting)
    (hi : s.rxIndex.toNat < rxFrameLen) (hn : s.rxIndex + 1 = 9) :
    receiveByte b s = .ok (s.setRxBuf (Memory.write s.rxBuf s.rxIndex.toNat b)).completeFrame := by
  rw [receiveByte_data b he hs hi, if_pos hn]

/-- In COLLECTING any earlier byte is stored and advances the index (41 R133). -/
theorem receiveByte_advances (b : Byte) {s : State} (he : s.rxEnabled = true) (hs : s.rxState = .collecting)
    (hi : s.rxIndex.toNat < rxFrameLen) (hn : ¬ s.rxIndex + 1 = 9) :
    receiveByte b s =
      .ok ((s.setRxBuf (Memory.write s.rxBuf s.rxIndex.toNat b)).setReceiver .collecting (s.rxIndex + 1)) := by
  rw [receiveByte_data b he hs hi, if_neg hn]

/-! ### What two RX_BYTE steps have in common -/

/-- Two states agree on what RX_BYTE looks at: `rx_state`, `rx_index` and `rx_enabled`. -/
def SameControl (s s' : State) : Prop :=
  s'.rxState = s.rxState ∧ s'.rxIndex = s.rxIndex ∧ s'.rxEnabled = s.rxEnabled

/-- The steps from `s` to `t` and from `s'` to `t'` both raise `ready`, or both leave it. -/
def SameRaise (s t s' t' : State) : Prop :=
  (t.ready = true ∧ t'.ready = true) ∨ (t.ready = s.ready ∧ t'.ready = s'.ready)

/-- The steps from `s` to `t` and from `s'` to `t'` both leave `rx_buf`, or both write `b` at one offset of it. -/
def SameStore (b : Byte) (s t s' t' : State) : Prop :=
  (t.rxBuf = s.rxBuf ∧ t'.rxBuf = s'.rxBuf) ∨
    ∃ a, t.rxBuf = Memory.write s.rxBuf a b ∧ t'.rxBuf = Memory.write s'.rxBuf a b

/-- After the same store each offset holds `b` in both buffers, or what it held before in both. -/
theorem SameStore.read {b : Byte} {s t s' t' : State} (h : SameStore b s t s' t') (x : Nat) :
    (Memory.read t.rxBuf x = some b ∧ Memory.read t'.rxBuf x = some b) ∨
      (Memory.read t.rxBuf x = Memory.read s.rxBuf x ∧ Memory.read t'.rxBuf x = Memory.read s'.rxBuf x) := by
  obtain ⟨hbuf, hbuf'⟩ | ⟨a, hbuf, hbuf'⟩ := h
  · exact .inr ⟨by rw [hbuf], by rw [hbuf']⟩
  · rw [hbuf, hbuf']
    by_cases hx : x = a
    · subst hx
      exact .inl ⟨Memory.read_write_same _ _ _, Memory.read_write_same _ _ _⟩
    · exact .inr ⟨Memory.read_write_other _ b hx, Memory.read_write_other _ b hx⟩

/-- Where RX_BYTE answers from one state it answers from every state with the same control, takes the same branch, and
so leaves the same control, raises the same `ready` and stores at the same offset (41 R136). -/
theorem receiveByte_of_sameControl {b : Byte} {s s' t : State} (hc : SameControl s s')
    (h : receiveByte b s = .ok t) :
    ∃ t', receiveByte b s' = .ok t' ∧ SameControl t t' ∧ SameRaise s t s' t' ∧ SameStore b s t s' t' := by
  obtain ⟨hstate, hindex, henabled⟩ := hc
  rcases receiveByte_cases h with ⟨he, rfl⟩ | ⟨he, hs, hb, rfl⟩ | ⟨he, hs, rfl, rfl⟩ | ⟨he, hs, hi, hn, rfl⟩ |
    ⟨he, hs, hi, hn, rfl⟩
  · exact ⟨s', receiveByte_disabled b (henabled.trans he), ⟨hstate, hindex, henabled⟩, .inr ⟨rfl, rfl⟩,
      .inl ⟨rfl, rfl⟩⟩
  · exact ⟨_, receiveByte_noise (henabled.trans he) (hstate.trans hs) hb, ⟨rfl, rfl, henabled⟩, .inr ⟨rfl, rfl⟩,
      .inl ⟨rfl, rfl⟩⟩
  · exact ⟨_, receiveByte_start (henabled.trans he) (hstate.trans hs), ⟨rfl, rfl, henabled⟩, .inr ⟨rfl, rfl⟩,
      .inr ⟨0, rfl, rfl⟩⟩
  · rw [← hindex] at hi hn ⊢
    exact ⟨_, receiveByte_completes b (henabled.trans he) (hstate.trans hs) hi hn, ⟨rfl, rfl, rfl⟩, .inl ⟨rfl, rfl⟩,
      .inr ⟨_, rfl, rfl⟩⟩
  · rw [← hindex] at hi hn ⊢
    exact ⟨_, receiveByte_advances b (henabled.trans he) (hstate.trans hs) hi hn, ⟨rfl, rfl, henabled⟩,
      .inr ⟨rfl, rfl⟩, .inr ⟨_, rfl, rfl⟩⟩

/-- In COLLECTING another byte takes the same branch: the control and `ready` after the step do not depend on the byte
(41 R133, R136). -/
theorem receiveByte_collecting_of_other_byte {b : Byte} (c : Byte) {s t : State} (hs : s.rxState = .collecting)
    (h : receiveByte b s = .ok t) :
    ∃ u, receiveByte c s = .ok u ∧ SameControl t u ∧ u.ready = t.ready := by
  rcases receiveByte_cases h with ⟨he, rfl⟩ | ⟨_, hidle, _⟩ | ⟨_, hidle, _⟩ | ⟨he, _, hi, hn, rfl⟩ |
    ⟨he, _, hi, hn, rfl⟩
  · exact ⟨_, receiveByte_disabled c he, ⟨rfl, rfl, rfl⟩, rfl⟩
  · cases hs.symm.trans hidle
  · cases hs.symm.trans hidle
  · exact ⟨_, receiveByte_completes c he hs hi hn, ⟨rfl, rfl, rfl⟩, rfl⟩
  · exact ⟨_, receiveByte_advances c he hs hi hn, ⟨rfl, rfl, rfl⟩, rfl⟩

/-- An RX_BYTE step leaves everything it has no access to (10 R42). -/
theorem sameOutsideReceiver_of_receiveByte {b : Byte} {s t : State} (h : receiveByte b s = .ok t) :
    SameOutsideReceiver s t := receiveByte_frame h

/-- Settles O55: states with the same control take the same branch of the receiver, every branch in COLLECTING is taken
whatever the byte, and no branch leaves the receiver. -/
theorem rxByteLooksAtNothingElse : Obligations.RxByteLooksAtNothingElse := by
  refine ⟨fun b s s' t hstate hindex henabled h => ?otherState, fun b c s t hs h => ?otherByte⟩
  case otherState =>
    have hb := exec_rxByte h
    obtain ⟨t', hb', ⟨hstate', hindex', henabled'⟩, hready, hstore⟩ :=
      receiveByte_of_sameControl ⟨hstate, hindex, henabled⟩ hb
    exact ⟨sameOutsideReceiver_of_receiveByte hb, t', exec_rxByte_of_ok hb', sameOutsideReceiver_of_receiveByte hb',
      hstate', hindex', henabled', hready, hstore.read⟩
  case otherByte =>
    obtain ⟨u, hu, ⟨hstate, hindex, henabled⟩, hready⟩ := receiveByte_collecting_of_other_byte c hs (exec_rxByte h)
    exact ⟨u, exec_rxByte_of_ok hu, hstate, hindex, hready, henabled⟩

end Sys2Proof.Machine
end

section
/-! The fields of a command word, and the opcode map as an equation over them (30 R93 to R98). -/

namespace Sys2Proof.Machine

open Sys2Proof.Claims

/-- The `op` field of a command word built from its fields (30 R93). -/
@[simp] theorem op_cmdWord (op : BitVec 3) (data : Byte) : (cmdWord op data).extractLsb' 8 3 = op :=
  BitVec.extractLsb'_append_eq_left

/-- The `data` field of a command word built from its fields (30 R93). -/
@[simp] theorem data_cmdWord (op : BitVec 3) (data : Byte) : (cmdWord op data).extractLsb' 0 8 = data :=
  BitVec.extractLsb'_append_eq_right

/-- Every command word is built from its two fields (30 R93). -/
theorem cmdWord_fields (w : CmdWord) : cmdWord (w.extractLsb' 8 3) (w.extractLsb' 0 8) = w := by
  apply BitVec.eq_of_getLsbD_eq
  intro i hi
  rw [cmdWord, BitVec.getLsbD_append]
  by_cases h : i < 8
  · simp [h]
  · simp [h, show i - 8 < 3 by omega, show 8 + (i - 8) = i by omega]

/-- The opcode map (30 R96) as one equation over the fields of the word. -/
theorem decodeCmd_cmdWord (op : BitVec 3) (data : Byte) :
    decodeCmd (cmdWord op data) =
      if op = 0 then .ok (.rxByte data)
      else if op = 4 then .ok (.crcUpdate data)
      else if 5 ≤ op.toNat then .error .reservedOp
      else if data ≠ 0 then .error .nonzeroData
      else if op = 1 then .ok .decodePoll
      else if op = 2 then .ok .sendTelemetry
      else .ok .crcInit := by
  simp only [decodeCmd, op_cmdWord, data_cmdWord, withoutData]
  have hop : op = 0 ∨ op = 1 ∨ op = 2 ∨ op = 3 ∨ op = 4 ∨ op = 5 ∨ op = 6 ∨ op = 7 := by
    revert op; decide
  rcases hop with rfl | rfl | rfl | rfl | rfl | rfl | rfl | rfl <;> simp [ite_not]

/-- Settles O3, the opcode map read field by field. -/
theorem commandWordsDecodeByTheMap : Obligations.CommandWordsDecodeByTheMap := decodeCmd_cmdWord

/-- Only the word `0x100` is a poll (30 R96, R98). -/
theorem word_of_decodePoll {w : CmdWord} (h : decodeCmd w = .ok .decodePoll) : w = 0x100 := by
  rw [← cmdWord_fields w, decodeCmd_cmdWord] at h
  have hfields : w.extractLsb' 8 3 = 1 ∧ w.extractLsb' 0 8 = 0 := by
    split_ifs at h with _ _ _ hdata hop <;> cases h
    exact ⟨hop, not_not.mp hdata⟩
  rw [← cmdWord_fields w, hfields.1, hfields.2]
  decide

end Sys2Proof.Machine
end

section
/-! The encodings read back by their layouts (30 section 1), and the rows of the opcode table that select them. -/

namespace Sys2Proof.Machine

open Sys2Proof.Claims

/-! ### The message map -/

/-- A reserved message-ID selects the row MSG_OTHER (30 R89). -/
theorem message_of_reserved {id : Byte} (f : RxFields) (h : 9 ≤ id.toNat) : message id f = .msgOther id f := by
  unfold message
  split
  case h_10 => rfl
  all_goals omega

/-- A receive frame is read as the row of the message map that its message-ID selects (30 R81, R88). -/
theorem decode_rxfBytes (id : Byte) (f : RxFields) : decode (.rxf (rxfBytes id f)) = .ok (message id f) := rfl

/-! ### Fields split into bytes and put together again -/

/-- A 24-bit field rebuilt from its three bytes, low to high (30 R85). -/
@[simp] theorem tick24_tickByte (t : Tick) : tick24 (tickByte t 0) (tickByte t 1) (tickByte t 2) = t := by
  apply BitVec.eq_of_getLsbD_eq
  intro i hi
  simp only [tick24, tickByte, BitVec.getLsbD_append, BitVec.getLsbD_extractLsb']
  by_cases h8 : i < 8
  · simp [h8]
  · by_cases h16 : i - 8 < 8
    · simp [h8, h16, show 8 + (i - 8) = i by omega]
    · simp [h8, h16, show i - 8 - 8 < 8 by omega, show 16 + (i - 8 - 8) = i by omega]

/-- The two high bits of the voltage are read back from bits 5:4 of their byte (30 R87). -/
@[simp] theorem unpackVbatHi_packVbatHi (v : BitVec 2) : unpackVbatHi (packVbatHi v) = v := by
  revert v; decide

/-- A one-bit field is read back from bit 0 of its byte (30 R82). -/
@[simp] theorem bitOf_zeroExtend (v : Bit) : bitOf (v.zeroExtend 8) 0 = v := by
  revert v; decide

/-- A transmit frame is read by its layout as the fields it was built from (30 R82). -/
theorem decodeTxf_body (p : TxPayload) (lo hi : Byte) :
    decodeTxf (p.body ++ [lo, hi]) = some (.telemetry p lo hi) := by
  simp [decodeTxf, TxPayload.body]

/-- A transmit frame is read by the decoder as TELEMETRY with the fields it was built from. -/
theorem decode_txfBytes (p : TxPayload) (lo hi : Byte) :
    decode (.txf (p.body ++ [lo, hi])) = .ok (.telemetry p lo hi) := by
  simp only [decode, decodeTxf_body]

/-- A command word is read by the decoder as the operation the opcode map gives it. -/
theorem decode_of_decodeCmd {w : CmdWord} {i : Instr} (h : decodeCmd w = .ok i) : decode (.cmd w) = .ok i := by
  simp only [decode, h]

/-- Settles O1: a command word is read by the opcode map, a receive frame by the message map, a transmit frame by its
layout. -/
theorem decodeEncodeRoundTrip : Obligations.DecodeEncodeRoundTrip := by
  intro i hi
  cases i
  case rxByte b => exact decode_of_decodeCmd (decodeCmd_cmdWord 0 b)
  case crcUpdate b => exact decode_of_decodeCmd (decodeCmd_cmdWord 4 b)
  case decodePoll => rfl
  case sendTelemetry => rfl
  case crcInit => rfl
  case msgOther id f =>
    have hid : 9 ≤ id.toNat := of_decide_eq_true hi
    exact (decode_rxfBytes id f).trans (congrArg Except.ok (message_of_reserved f hid))
  case telemetry p crcLo crcHi => exact decode_txfBytes p crcLo crcHi
  all_goals exact decode_rxfBytes _ _

/-- Settles O4, by running the decoder on the seven words. -/
theorem specWordsDecode : Obligations.SpecWordsDecode := by
  refine ⟨rfl, rfl, rfl, rfl, rfl, rfl, rfl⟩

/-! ### The opcode table -/

/-- A row whose mask is below `2 ^ 16` looks at the low 16 bits of a word only (30 R83). -/
theorem selects_mod {r : OpcodeRow} (h : r.mask < 2 ^ 16) (width word : Nat) :
    r.selects width word = r.selects width (word % 2 ^ 16) := by
  have hmask : word &&& r.mask = word % 2 ^ 16 &&& r.mask := by
    rw [← Nat.mod_eq_of_lt h, ← Nat.and_mod_two_pow, Nat.mod_eq_of_lt h]
    exact (Nat.mod_eq_of_lt (Nat.and_le_right.trans_lt h)).symm
  rw [OpcodeRow.selects, OpcodeRow.selects, hmask]

/-- The mnemonics of the rows that select a word of this width. -/
def selectedBy (width word : Nat) : List String :=
  (opcodeTable.filter fun r => r.selects width word).map OpcodeRow.mnemonic

/-- Every row of the table looks at the low 16 bits of a word only. -/
theorem selectedBy_mod (width word : Nat) : selectedBy width word = selectedBy width (word % 2 ^ 16) := by
  have hmask : ∀ r ∈ opcodeTable, r.mask < 2 ^ 16 := by decide
  rw [selectedBy, selectedBy, List.filter_congr fun r hr => selects_mod (hmask r hr) width word]

/-- The low 16 bits of a frame are its first two bytes (30 R83). -/
theorem frameWord_mod (b0 b1 : Byte) (rest : List Byte) :
    frameWord (b0 :: b1 :: rest) % 2 ^ 16 = b0.toNat + 256 * b1.toNat := by
  have h0 := b0.isLt
  have h1 := b1.isLt
  simp only [frameWord]
  omega

/-- A reserved message-ID lies in exactly one of the aligned blocks of 30 R89. -/
theorem selectedBy_reserved :
    ∀ id : Byte, 9 ≤ id.toNat → selectedBy 72 (rxStart.toNat + 256 * id.toNat) = ["MSG_OTHER"] := by decide

/-- Exactly one row selects a receive frame with this message-ID, and it has the mnemonic of the message map. -/
theorem selectedBy_rxf (id : Byte) (f : RxFields) :
    selectedBy 72 (frameWord (rxfBytes id f)) = [(message id f).mnemonic] := by
  rw [selectedBy_mod, rxfBytes, frameWord_mod]
  by_cases hid : 9 ≤ id.toNat
  · rw [message_of_reserved f hid, selectedBy_reserved id hid, Instr.mnemonic]
  · have hlt : id.toNat < 9 := by omega
    obtain ⟨n, rfl⟩ : ∃ n : Fin 9, id = BitVec.ofNat 8 n.val := ⟨⟨id.toNat, hlt⟩, by simp⟩
    fin_cases n <;> rfl

/-- Exactly one row selects RX_BYTE of any byte (30 R96). -/
theorem selectedBy_rxByte : ∀ b : Byte, selectedBy 11 (cmdWord 0 b).toNat = ["RX_BYTE"] := by decide

/-- Exactly one row selects CRC_UPDATE of any byte (30 R96). -/
theorem selectedBy_crcUpdate : ∀ b : Byte, selectedBy 11 (cmdWord 4 b).toNat = ["CRC_UPDATE"] := by decide

/-- Exactly one row selects a transmit frame, whatever its byte 1 (30 R82). -/
theorem selectedBy_txStart : ∀ b : Byte, selectedBy 224 (txStart.toNat + 256 * b.toNat) = ["TELEMETRY"] := by decide

/-- Exactly one row selects a transmit frame. -/
theorem selectedBy_txf (p : TxPayload) (lo hi : Byte) :
    selectedBy 224 (frameWord (p.body ++ [lo, hi])) = ["TELEMETRY"] := by
  rw [selectedBy_mod, TxPayload.body, List.cons_append, List.cons_append, frameWord_mod, selectedBy_txStart]

/-- Settles O2: the rows look at the two first bytes of a frame, or at the op and the data of a command word. -/
theorem oneTableRowSelectsEachEncoding : Obligations.OneTableRowSelectsEachEncoding := by
  intro i hi
  cases i
  case rxByte b => exact selectedBy_rxByte b
  case crcUpdate b => exact selectedBy_crcUpdate b
  case decodePoll => rfl
  case sendTelemetry => rfl
  case crcInit => rfl
  case msgOther id f =>
    have hid : 9 ≤ id.toNat := of_decide_eq_true hi
    exact (selectedBy_rxf id f).trans (by rw [message_of_reserved f hid])
  case telemetry p crcLo crcHi => exact selectedBy_txf p crcLo crcHi
  all_goals exact selectedBy_rxf _ _

end Sys2Proof.Machine
end

section
/-! CRC_UPDATE and the CRC of a frame (40 R111 to R114). -/

namespace Sys2Proof.Machine

open Sys2Proof.Claims

/-- Settles O7: an initialised accumulator folds the byte, an unwritten one faults. -/
theorem crcUpdateFoldsOneByte : Obligations.CrcUpdateFoldsOneByte :=
  ⟨fun b => decodeCmd_cmdWord 4 b, fun b _ h => exec_crcUpdate_initialised b h,
    fun b _ h => exec_crcUpdate_unwritten b h, by decide⟩

/-- On an initialised accumulator one CRC_UPDATE per byte, in order, folds the CRC step over the bytes. -/
theorem runInstrs_crcUpdate (bytes : List Byte) {s : State} (h : s.crcAcc.initialised = true) :
    runInstrs (bytes.map .crcUpdate) s =
      .next (s.setCrcAcc (bytes.foldl machineParams.crc16Step s.crcAcc.value)) := by
  induction bytes generalizing s with
  | nil =>
    have hacc : s.crcAcc = ⟨s.crcAcc.value, true⟩ := by rw [← h]
    exact congrArg (fun acc => Host.Outcome.next { s with crcAcc := acc }) hacc
  | cons b rest ih =>
    have hrest := ih (s := s.setCrcAcc (machineParams.crc16Step s.crcAcc.value b)) rfl
    exact (runInstrs_cons_of_next _ (exec_crcUpdate_initialised b h)).trans hrest

/-- Settles O8: seeding the accumulator initialises it, and the updates fold the bytes from the seed. -/
theorem crcCommandsComputeFrameCrc : Obligations.CrcCommandsComputeFrameCrc :=
  ⟨rfl, fun bytes s => ⟨(runInstrs_cons_of_next _ (exec_crcInit s)).trans
    (runInstrs_crcUpdate bytes (s := s.setCrcAcc crcSeed) rfl), rfl⟩⟩

end Sys2Proof.Machine
end

section
/-! The reference CRC step (40 R112): it is linear and injective in its shift register. These are facts about the
reference step only (log 1). -/

namespace Sys2Proof.Machine

open Sys2Proof.Claims

/-! ### The shift register -/

/-- Shifting is linear: the feedback of a sum is the sum of the feedbacks. -/
theorem crcShift_xor (c d : Half) : crcShift (c ^^^ d) = crcShift c ^^^ crcShift d := by
  have hshift : (c ^^^ d) >>> 1 = c >>> 1 ^^^ d >>> 1 := BitVec.ushiftRight_xor_distrib ..
  unfold crcShift
  rw [hshift, BitVec.getLsbD_xor]
  generalize (0xA001 : Half) = feedback
  have hswap : d >>> 1 ^^^ feedback = feedback ^^^ d >>> 1 := BitVec.xor_comm ..
  cases c.getLsbD 0 <;> cases d.getLsbD 0 <;> simp [BitVec.xor_assoc, hswap]

/-- Only the zero register shifts to zero: the feedback sets bit 15, which a plain shift leaves 0. -/
theorem crcShift_eq_zero {c : Half} (h : crcShift c = 0) : c = 0 := by
  have hbound : c.toNat < 65536 := c.isLt
  have hshift : (c >>> 1).toNat = c.toNat / 2 := by simp [Nat.shiftRight_eq_div_pow]
  unfold crcShift at h
  split at h
  case isTrue =>
    have hc : c >>> 1 = 0xA001 := BitVec.xor_eq_zero_iff.mp h
    have hfeedback : (c >>> 1).toNat = 0xA001 := by rw [hc]; rfl
    omega
  case isFalse hlow =>
    have hzero : (c >>> 1).toNat = 0 := by rw [h]; rfl
    have heven : c.toNat % 2 = 0 := by simpa [BitVec.getLsbD, Nat.testBit_zero] using hlow
    exact BitVec.eq_of_toNat_eq (by omega : c.toNat = 0)

/-- Any number of shifts is linear. -/
theorem repeat_crcShift_xor (n : Nat) (c d : Half) :
    Nat.repeat crcShift n (c ^^^ d) = Nat.repeat crcShift n c ^^^ Nat.repeat crcShift n d := by
  induction n with
  | zero => rfl
  | succ n ih => rw [Nat.repeat, ih, crcShift_xor]; rfl

/-- No number of shifts takes another register to zero. -/
theorem repeat_crcShift_eq_zero {n : Nat} {c : Half} (h : Nat.repeat crcShift n c = 0) : c = 0 := by
  induction n with
  | zero => exact h
  | succ n ih => exact ih (crcShift_eq_zero h)

/-- Shifting is injective. -/
theorem repeat_crcShift_injective (n : Nat) : Function.Injective (Nat.repeat crcShift n) := by
  intro c d h
  have hzero : Nat.repeat crcShift n (c ^^^ d) = 0 := by rw [repeat_crcShift_xor, h, BitVec.xor_self]; rfl
  exact BitVec.xor_eq_zero_iff.mp (repeat_crcShift_eq_zero hzero)

/-- While zeros fall out, shifting is a plain shift. -/
theorem repeat_crcShift_of_low_zeros {n : Nat} {c : Half} (h : ∀ i, i < n → c.getLsbD i = false) :
    Nat.repeat crcShift n c = c >>> n := by
  induction n with
  | zero => simp [Nat.repeat]
  | succ n ih =>
    have hbit : (c >>> n).getLsbD 0 = false := by simpa using h n (Nat.lt_succ_self n)
    rw [Nat.repeat, ih fun i hi => h i (Nat.lt_succ_of_lt hi), crcShift, hbit, if_neg Bool.false_ne_true,
      ← BitVec.shiftRight_add]

/-! ### One byte -/

/-- Taking a register's low byte away leaves its low eight bits 0. -/
theorem xor_low_byte_getLsbD (x : Half) (i : Nat) (hi : i < 8) :
    (x ^^^ (x.extractLsb' 0 8).zeroExtend 16).getLsbD i = false := by
  simp [hi, show i < 16 by omega]

/-- What is left of a register when its low byte is taken away shifts out whole. -/
theorem xor_low_byte_shiftRight (x : Half) : (x ^^^ (x.extractLsb' 0 8).zeroExtend 16) >>> 8 = x >>> 8 := by
  apply BitVec.eq_of_getLsbD_eq
  intro i hi
  simp

/-- Eight shifts of a register: its high byte moves down, and its low byte leaves its table entry. -/
theorem repeat_crcShift_eight (x : Half) :
    Nat.repeat crcShift 8 x = (x >>> 8) ^^^ crc16StepRef 0 (x.extractLsb' 0 8) := by
  have hx : x = (x ^^^ (x.extractLsb' 0 8).zeroExtend 16) ^^^ (x.extractLsb' 0 8).zeroExtend 16 := by
    rw [BitVec.xor_assoc, BitVec.xor_self, BitVec.xor_zero]
  calc Nat.repeat crcShift 8 x
      = Nat.repeat crcShift 8 (x ^^^ (x.extractLsb' 0 8).zeroExtend 16) ^^^
          Nat.repeat crcShift 8 ((x.extractLsb' 0 8).zeroExtend 16) := by rw [← repeat_crcShift_xor, ← hx]
    _ = (x >>> 8) ^^^ crc16StepRef 0 (x.extractLsb' 0 8) := by
      rw [repeat_crcShift_of_low_zeros (xor_low_byte_getLsbD x), xor_low_byte_shiftRight, crc16StepRef]
      exact congrArg (fun y => x >>> 8 ^^^ Nat.repeat crcShift 8 y) BitVec.zero_xor.symm

/-- Settles O9: the byte is added to the low half of the accumulator, so the high half only shifts. -/
theorem referenceStepIsTableDriven : Obligations.ReferenceStepIsTableDriven := by
  intro acc b
  have hhigh : (acc ^^^ b.zeroExtend 16) >>> 8 = acc >>> 8 := by
    apply BitVec.eq_of_getLsbD_eq
    intro i hi
    simp
  rw [crc16StepRef, repeat_crcShift_eight, hhigh]

/-- A register that takes in its own low byte only moves its high byte down. -/
theorem crc16StepRef_own_low_byte (c : Half) : crc16StepRef c (c.extractLsb' 0 8) = c >>> 8 := by
  rw [crc16StepRef, repeat_crcShift_of_low_zeros (xor_low_byte_getLsbD c), xor_low_byte_shiftRight]

/-- A register that holds no more than the byte it takes in goes to zero. -/
theorem crc16StepRef_own_high_byte (c : Half) : crc16StepRef (c >>> 8) (c.extractLsb' 8 8) = 0 := by
  have hbyte : (c.extractLsb' 8 8).zeroExtend 16 = c >>> 8 := by
    apply BitVec.eq_of_getLsbD_eq
    intro i hi
    by_cases h8 : i < 8
    · simp [h8, hi]
    · have hbeyond : c.getLsbD (8 + i) = false := BitVec.getLsbD_of_ge c _ (by omega)
      simp [h8, hbeyond]
  rw [crc16StepRef, hbyte, BitVec.xor_self]
  rfl

set_option maxRecDepth 20000 in
/-- The check value of the reference step: its CRC of the ASCII bytes 123456789. -/
theorem refCrc_check_value : refCrc [0x31, 0x32, 0x33, 0x34, 0x35, 0x36, 0x37, 0x38, 0x39] = 0x4B37 := by decide

/-- Settles O10: the CRC's low byte cancels the low half of the register, its high byte the rest. -/
theorem referenceCrcResidueIsZero : Obligations.ReferenceCrcResidueIsZero := by
  refine ⟨refCrc_check_value, fun bytes => ?residue⟩
  case residue =>
    rw [refCrc, List.foldl_append, ← refCrc, List.foldl_cons, List.foldl_cons, List.foldl_nil,
      crc16StepRef_own_low_byte, crc16StepRef_own_high_byte]

/-! ### One changed byte -/

/-- From different accumulators the same byte leads to different ones. -/
theorem crc16StepRef_injective_acc (b : Byte) : Function.Injective fun acc => crc16StepRef acc b := by
  intro c d h
  exact (BitVec.xor_left_inj _).mp (repeat_crcShift_injective 8 h)

/-- From one accumulator different bytes lead to different ones. -/
theorem crc16StepRef_injective_byte (acc : Half) : Function.Injective (crc16StepRef acc) := by
  intro b c h
  have hext : b.zeroExtend 16 = c.zeroExtend 16 := (BitVec.xor_right_inj _).mp (repeat_crcShift_injective 8 h)
  bv_omega

/-- From different accumulators the same bytes lead to different ones. -/
theorem foldl_crc16StepRef_injective (bytes : List Byte) :
    Function.Injective fun acc => bytes.foldl crc16StepRef acc := by
  induction bytes with
  | nil => exact fun _ _ h => h
  | cons b rest ih => exact ih.comp (crc16StepRef_injective_acc b)

/-- A list with one byte changed has another CRC. -/
theorem byte_eq_of_refCrc_set {bytes : List Byte} {i : Nat} {x : Byte} (hi : i < bytes.length)
    (h : refCrc (bytes.set i x) = refCrc bytes) : x = bytes[i] := by
  have hcrc : ∀ y, refCrc (bytes.set i y) =
      (bytes.drop (i + 1)).foldl crc16StepRef (crc16StepRef (refCrc (bytes.take i)) y) := fun y => by
    rw [List.set_eq_take_append_cons_drop, if_pos hi, refCrc, List.foldl_append, List.foldl_cons, refCrc]
  have hsame : refCrc (bytes.set i x) = refCrc (bytes.set i bytes[i]) := by rw [h, List.set_getElem_self]
  rw [hcrc, hcrc] at hsame
  exact crc16StepRef_injective_byte _ (foldl_crc16StepRef_injective _ hsame)

/-- A byte with one bit flipped is another byte. -/
theorem flipped_ne (b : Byte) {j : Nat} (hj : j < 8) : b ^^^ (1 <<< j) ≠ b := by
  intro h
  have hmask : (BitVec.ofNat 8 (1 <<< j)).getLsbD j = true := by
    rw [BitVec.getLsbD_ofNat, Nat.one_shiftLeft, Nat.testBit_two_pow_self, decide_eq_true hj]
    rfl
  have hbit : (b ^^^ BitVec.ofNat 8 (1 <<< j)).getLsbD j = b.getLsbD j := congrArg (BitVec.getLsbD · j) h
  rw [BitVec.getLsbD_xor, hmask] at hbit
  simp at hbit

/-- The 16-bit field of 30 R84 is the two bytes put together. -/
theorem le16_eq_half (lo hi : Byte) : le16 lo hi = half lo hi := (half_eq_shift_or lo hi).symm

/-- A 16-bit field tells its two bytes. -/
theorem bytes_of_le16_eq {lo hi lo' hi' : Byte} (h : le16 lo hi = le16 lo' hi') : lo = lo' ∧ hi = hi' := by
  rw [le16_eq_half, le16_eq_half] at h
  exact ⟨by simpa using congrArg lowByte h, by simpa using congrArg highByte h⟩

/-- The bytes 0 to 6 of a list with a byte at another offset changed. -/
theorem take_seven_set_of_ge (bytes : List Byte) {i : Nat} (x : Byte) (hi : 7 ≤ i) :
    (bytes.set i x).take 7 = bytes.take 7 := by
  rw [List.take_set, List.set_eq_of_length_le ((List.length_take_le 7 bytes).trans hi)]

/-- Nine valid bytes with one of them changed do not pass the check: one of bytes 0 to 6 changes the CRC, and one of the
trailer changes the value the CRC is compared with. -/
theorem byte_eq_of_refValid_set {bytes : List Byte} {i : Nat} {x : Byte} (hi : i < 9) (h : RefValid bytes)
    (hset : RefValid (bytes.set i x)) : x = bytes.getD i 0 := by
  obtain ⟨hlen, hcrc⟩ := h
  obtain ⟨_, hcrc'⟩ := hset
  have hget : ∀ k, k ≠ i → (bytes.set i x).getD k 0 = bytes.getD k 0 := fun k hk => by simp [hk.symm]
  have hself : (bytes.set i x).getD i 0 = x := by simp [hlen, hi]
  by_cases h7 : i < 7
  · rw [hget 7 (by omega), hget 8 (by omega), ← hcrc, List.take_set] at hcrc'
    have hx := byte_eq_of_refCrc_set (by simp [hlen, h7]) hcrc'
    simpa [hlen, hi] using hx
  · rw [take_seven_set_of_ge bytes x (by omega), hcrc] at hcrc'
    obtain ⟨hlo, hhi⟩ := bytes_of_le16_eq hcrc'
    obtain rfl | rfl : i = 7 ∨ i = 8 := by omega
    · exact hself.symm.trans hlo.symm
    · exact hself.symm.trans hhi.symm

/-- Settles O11: a flipped bit is a changed byte. -/
theorem referenceCrcDetectsSingleBitErrors : Obligations.ReferenceCrcDetectsSingleBitErrors := by
  intro bytes h i hi j hj hset
  exact flipped_ne _ hj (byte_eq_of_refValid_set hi h hset)

end Sys2Proof.Machine
end

section
/-! The transmit frame: the payload a sample gives, the bytes it is emitted as, and the fields read back from them
(43 R190 to R210). -/

namespace Sys2Proof.Machine

open Sys2Proof.Claims

/-! ### A sample for every payload -/

/-- Scaling the smallest raw current for a value gives that value (43 R194). -/
@[simp] theorem curScale_rawCurrentFor (b : Byte) : curScale (rawCurrentFor b) = b := by
  have hb : b.toNat < 256 := b.isLt
  have hraw : (rawCurrentFor b).toNat = (b.toNat * 1000 + 825) / 826 := by
    rw [rawCurrentFor, BitVec.toNat_ofNat]
    omega
  have hscaled : (b.toNat * 1000 + 825) / 826 * 826 / 1000 = b.toNat := by omega
  rw [curScale, hraw, hscaled, BitVec.ofNat_toNat, BitVec.setWidth_eq]

/-- The ten used bits of the battery voltage, put together and split again (43 R193). -/
theorem vbat_split (hi : BitVec 2) (lo : Byte) :
    ((hi ++ lo).zeroExtend 16).extractLsb' 0 8 = lo ∧ ((hi ++ lo).zeroExtend 16).extractLsb' 8 2 = hi := by
  have happend (i : Nat) := BitVec.getLsbD_append (x := hi) (y := lo) (i := i)
  constructor <;> apply BitVec.eq_of_getLsbD_eq <;> intro i h
  · simp [happend, h, show i < 16 by omega]
  · simp [happend, h, show 8 + i < 16 by omega]

/-- The ten used bits of the battery voltage, split and put together again (43 R193). -/
theorem vbat_join (v : Half) : v.extractLsb' 8 2 ++ v.extractLsb' 0 8 = v.extractLsb' 0 10 := by
  apply BitVec.eq_of_getLsbD_eq
  intro i hi
  rw [BitVec.getLsbD_append]
  by_cases h8 : i < 8
  · simp [h8, hi]
  · simp [h8, hi, show i - 8 < 2 by omega, show 8 + (i - 8) = i by omega]

/-- A sample with the same value in both inputs of byte 8 gives that value whatever `cfg[20]` holds (43 R198). -/
theorem tempOrThrottle_sampleFor (limitEnabled : Byte) (p : TxPayload) :
    tempOrThrottle limitEnabled (sampleFor p) = p.tempOrThr := ite_self _

/-- The encoder builds a payload from the sample for it. -/
theorem buildPayload_sampleFor (limitEnabled : Byte) (p : TxPayload) :
    buildPayload limitEnabled (sampleFor p) = p := by
  obtain ⟨hlo, hhi⟩ := vbat_split p.vbatHi p.vbatLo
  simp only [buildPayload, tempOrThrottle_sampleFor]
  simp only [sampleFor, hlo, hhi, curScale_rawCurrentFor]

/-- Settles O5, by the sample the model gives for the payload. -/
theorem everyPayloadCanBeSent : Obligations.EveryPayloadCanBeSent := buildPayload_sampleFor

/-! ### The bytes of a send -/

/-- The payload's covered bytes are those of 43 R190. -/
theorem body_buildPayload (limitEnabled : Byte) (t : Telemetry) :
    (buildPayload limitEnabled t).body = txBytes limitEnabled t := by
  have hselected : tempOrThrottle limitEnabled t =
      if limitEnabled = 0 then t.throttleProcessed else t.motorTemperature := ite_not ..
  rw [txBytes, ← hselected]
  rfl

/-- SEND_TELEMETRY emits the frame of its inputs (43 R190). -/
theorem exec_sendTelemetry (s : State) :
    exec .sendTelemetry s =
      .next (emitFrame machineParams (buildPayload s.cfg.temperatureLimitEnabled s.inputs.telemetry) s) := rfl

/-- Settles O36: the frame emitted is the payload's bytes and their CRC. -/
theorem sendEmitsTheTelemetryFrame : Obligations.SendEmitsTheTelemetryFrame := by
  refine ⟨rfl, fun s => ⟨_, rfl, ?_⟩⟩
  rw [exec_sendTelemetry, emitFrame_eq, txFrame, body_buildPayload]
  rfl

/-- Settles O37: the frame emitted is the payload's bytes and their CRC, whatever trailer the word has. -/
theorem telemetryRowIsEmittedWithItsCrc : Obligations.TelemetryRowIsEmittedWithItsCrc :=
  fun p _ _ _ => ⟨_, p.body, _, rfl, rfl, TxPayload.body_length p, rfl, rfl⟩

/-- Settles O38: the layout reads back the payload the send built, and the payload's fields are the inputs. -/
theorem sentFrameDecodesToTheInputs : Obligations.SentFrameDecodesToTheInputs := by
  intro s t h
  obtain rfl := Host.Outcome.next.inj ((exec_sendTelemetry s).symm.trans h)
  refine ⟨_, _, _, _, rfl, txFrame_length _ _, decode_txfBytes _ _ _, half_lowByte_highByte _, vbat_join _, rfl, rfl,
    rfl, rfl, fun hlimit => if_pos hlimit, fun hlimit => if_neg (not_not.mpr hlimit), rfl, rfl, rfl, rfl, rfl, rfl, rfl,
    rfl, rfl, rfl, rfl, rfl⟩

end Sys2Proof.Machine
end

section
/-! Reset (70 R260), and what the next operation is (30 R93, R104; log 7, 11, 12). -/

namespace Sys2Proof.Machine

open Sys2Proof.Claims

/-- Settles O41: reset is defined by these values. -/
theorem resetLeavesTheStatedValues : Obligations.ResetLeavesTheStatedValues :=
  ⟨fun _ _ => ⟨rfl, rfl, fun _ => rfl, rfl, rfl, rfl, rfl, rfl, rfl, rfl, rfl⟩, _, _, rfl, rfl⟩

/-- Settles O42: the receiver is IDLE, nothing is written, `ready` is 0 and the channel is enabled. -/
theorem invariantHoldsAtReset : Obligations.InvariantHoldsAtReset := fun _ _ =>
  { receiver := rfl
    buffer := ⟨rfl, nofun, nofun, nofun⟩
    handoff := nofun }

/-- With no refusal so far and a well-formed configuration the operation of a word that decodes is run, in the state
that has accepted its offer (30 R93). -/
theorem nextOp_of_decodeCmd {s : State} {o : Offer} {rest : List Offer} {i : Instr} (hm : s.refusalMark = none)
    (hw : setupWellFormed s.setup = true) (ho : s.offers = o :: rest) (hd : decodeCmd o.word = .ok i) :
    nextOp s = .run i (s.accept o rest) := by
  simp only [nextOp, hm, hw, ho, hd, if_true]

/-- A command word that the decoder reads is read by the opcode map. -/
theorem decodeCmd_of_decode {w : CmdWord} {i : Instr} (h : decode (.cmd w) = .ok i) : decodeCmd w = .ok i := by
  cases hd : decodeCmd w with
  | error e => simp only [decode, hd] at h; cases h
  | ok j => simp only [decode, hd] at h; rw [Except.ok.inj h]

/-- The operation of a command word is well formed. -/
theorem wellFormed_of_decodeCmd {w : CmdWord} {i : Instr} (h : decodeCmd w = .ok i) : i.wellFormed = true := by
  rcases decodeCmd_cases h with ⟨_, rfl⟩ | rfl | rfl | rfl | ⟨_, rfl⟩ <;> rfl

/-- Settles O50: the next operation is that of the word offered. -/
theorem stepRunsTheOfferedInstruction : Obligations.StepRunsTheOfferedInstruction := by
  intro s o rest i hm hw ho h
  have hd := decodeCmd_of_decode h
  refine ⟨wellFormed_of_decodeCmd hd, ?_⟩
  rw [step, nextOp_of_decodeCmd hm hw ho hd]
  rfl

/-- Settles O52: the mark is looked at first, then the configuration, then the offers. -/
theorem markConfigurationAndSilenceComeFirst : Obligations.MarkConfigurationAndSilenceComeFirst := by
  refine fun s => ⟨fun r hr => ?marked, fun hm hrange => ?badConfig, fun hm hw ho => ?silent⟩
  case marked => simp only [step, nextOp, hr]
  case badConfig =>
    have hw : ¬ setupWellFormed s.setup = true := by
      rw [setupWellFormed, rampInRange_iff]
      omega
    simp only [step, nextOp, hm, if_neg hw]
    rfl
  case silent => simp only [step, nextOp, hm, hw, ho, if_true]

end Sys2Proof.Machine
end

section
/-! What a message does to the configuration registers and the stream (42 R157 to R171). -/

namespace Sys2Proof.Machine

open Sys2Proof.Claims

/-! ### A message's own operation -/

/-- The rate stored for a received byte is the one the machine stores (42 R167). -/
theorem storedRate_eq_rampRate (rampDefault b5 : Byte) : storedRate rampDefault b5 = rampRate rampDefault b5 := by
  simp only [storedRate, rampRate, rampInRange_iff]

/-- A reserved message-ID has no register and no event of its own (42 R171). -/
theorem own_of_reserved {id : Byte} (rampDefault b5 b6 : Byte) (h : 9 ≤ id.toNat) :
    ownRegisters id = [] ∧ ownValues rampDefault id b5 b6 = [] ∧ ownEvents id b5 b6 = [] := by
  refine ⟨?_, ?_, ?_⟩
  · unfold ownRegisters
    split
    case h_10 => rfl
    all_goals omega
  · unfold ownValues
    split
    case h_10 => rfl
    all_goals omega
  · unfold ownEvents
    split
    case h_3 => rfl
    all_goals omega

/-- A message's own operation gives each register of its ID its value (42 R160 to R170). -/
theorem dispatch_ownValues (p : Params) (id b5 b6 : Byte) (s : State) :
    ∀ v ∈ ownValues s.setup.rampDefault id b5 b6, (dispatch p id b5 b6 s).cfg.read v.1 = v.2 := by
  refine dispatch_elim (motive := fun k t => id.toNat = k →
    ∀ v ∈ ownValues s.setup.rampDefault id b5 b6, t.cfg.read v.1 = v.2) p id b5 b6 s
    ?_ ?_ ?_ ?_ ?_ ?_ ?_ ?_ ?_ ?reserved rfl
  case reserved =>
    rintro n hn rfl
    obtain ⟨_, hvalues, _⟩ := own_of_reserved (id := id) s.setup.rampDefault b5 b6 hn
    simp [hvalues]
  all_goals
    intro hid
    simp only [ownValues, hid, le16_eq_half, storedRate_eq_rampRate, List.forall_mem_cons, List.not_mem_nil,
      false_implies, implies_true, and_true]
    and_intros <;> rfl

/-- A message's own operation changes no register but those of its ID. -/
theorem dispatch_sameRegistersBut (p : Params) (id b5 b6 : Byte) (s : State) :
    SameRegistersBut (ownRegisters id) s (dispatch p id b5 b6 s) := by
  refine dispatch_elim (motive := fun k t => id.toNat = k → SameRegistersBut (ownRegisters id) s t) p id b5 b6 s
    ?_ ?_ ?_ ?_ ?_ ?_ ?_ ?_ ?_ ?reserved rfl
  case reserved => exact fun _ _ _ _ _ => rfl
  all_goals
    intro hid n hn
    simp only [ownRegisters, hid] at hn
    fin_cases n <;> simp at hn <;> rfl

/-- A message's own operation leaves the four common fields. -/
theorem dispatch_common (p : Params) (id b5 b6 : Byte) (s : State) :
    (dispatch p id b5 b6 s).cfg.assistLevel = s.cfg.assistLevel ∧
      (dispatch p id b5 b6 s).cfg.lightsOn = s.cfg.lightsOn ∧
      (dispatch p id b5 b6 s).cfg.walkAssist = s.cfg.walkAssist ∧
      (dispatch p id b5 b6 s).cfg.batteryMaxPowerDiv25 = s.cfg.batteryMaxPowerDiv25 := by
  refine dispatch_elim (motive := fun _ t => t.cfg.assistLevel = s.cfg.assistLevel ∧
    t.cfg.lightsOn = s.cfg.lightsOn ∧ t.cfg.walkAssist = s.cfg.walkAssist ∧
    t.cfg.batteryMaxPowerDiv25 = s.cfg.batteryMaxPowerDiv25) p id b5 b6 s ?_ ?_ ?_ ?_ ?_ ?_ ?_ ?_ ?_ ?reserved
  case reserved => exact fun _ _ => ⟨rfl, rfl, rfl, rfl⟩
  all_goals exact ⟨rfl, rfl, rfl, rfl⟩

/-- A message's own operation appends the event of its ID, if it has one (42 R157). -/
theorem dispatch_ownEvents (id b5 b6 : Byte) (s : State) :
    (dispatch machineParams id b5 b6 s).output = s.output ++ ownEvents id b5 b6 := by
  have hevents : ownEvents id b5 b6 = if id.toNat = 0 then [.cutoffStep (machineParams.cutoffStep (half b5 b6))]
      else if id.toNat = 2 then [.maxCurrent b6] else [] := by
    unfold ownEvents
    split <;> simp_all [le16_eq_half]
  rw [dispatch_output, hevents]

/-- The common fields are registers 0 to 3 (42 R156). -/
theorem commonCfg_read (v : View) (c : CfgFile) {n : Fin 22} (hn : n ∉ ([0, 1, 2, 3] : List (Fin 22))) :
    (commonCfg v c).read n = c.read n := by
  fin_cases n <;> simp at hn <;> rfl

/-! ### The commit of a poll -/

/-- The state in which a matching poll runs its message's own operation: the common fields are written and `LIGHTS` is
emitted (42 R156). -/
def dispatchState (v : View) (s : State) : State :=
  (applyCommon v (s.setCrcRx (frameCrc machineParams v.covered))).emit (.lights (bitOf v.flags 0))

/-- The commit of a poll that matches: the message's own operation, `PERSIST` and the handoff (42 R155). -/
theorem commitView_of_match {v : View} (h : frameCrc machineParams v.covered = v.expected) (s : State) :
    commitView machineParams v s =
      (((dispatch machineParams v.id v.b5 v.b6 (dispatchState v s)).emit .persist).clearReady).armReceiver :=
  if_pos h

/-- The commit of a poll that does not match: `crc_rx` and the re-arm (42 R154). -/
theorem commitView_of_mismatch {v : View} (h : frameCrc machineParams v.covered ≠ v.expected) (s : State) :
    commitView machineParams v s = (s.setCrcRx (frameCrc machineParams v.covered)).armReceiver :=
  if_neg h

/-- Every commit leaves the CRC of the covered bytes in `crc_rx` (42 R152). -/
theorem commitView_crcRx (v : View) (s : State) :
    (commitView machineParams v s).crcRx = ⟨frameCrc machineParams v.covered, true⟩ := by
  by_cases h : frameCrc machineParams v.covered = v.expected
  · obtain ⟨_, _, _, _, _, hcrc, _⟩ := dispatch_frame machineParams v.id v.b5 v.b6 (dispatchState v s)
    rw [commitView_of_match h]
    exact hcrc
  · rw [commitView_of_mismatch h]
    rfl

/-- A matching poll emits `LIGHTS`, the event of its message, and `PERSIST` (42 R157). -/
theorem commitView_output_of_match {v : View} (h : frameCrc machineParams v.covered = v.expected) (s : State) :
    (commitView machineParams v s).output =
      s.output ++ .lights (bitOf v.flags 0) :: (ownEvents v.id v.b5 v.b6 ++ [.persist]) := by
  rw [commitView_of_match h]
  simp [dispatch_ownEvents, dispatchState]

/-- What a matching poll leaves in the registers and the stream (42 R155 to R171). -/
theorem commitView_match_effect {v : View} (h : frameCrc machineParams v.covered = v.expected) {s t : State}
    (ht : t = commitView machineParams v s) :
    t.ready = false ∧ t.cfg.assistLevel = v.assist ∧ t.cfg.lightsOn = v.flags.extractLsb' 0 1 ∧
      t.cfg.walkAssist = v.flags.extractLsb' 1 1 ∧ t.cfg.batteryMaxPowerDiv25 = v.power ∧
      Emits s t (.lights t.cfg.lightsOn :: .persist :: ownEvents v.id v.b5 v.b6) ∧
      (∀ n w, (n, w) ∈ ownValues s.setup.rampDefault v.id v.b5 v.b6 → t.cfg.read n = w) ∧
      SameRegistersBut ([0, 1, 2, 3] ++ ownRegisters v.id) s t := by
  obtain ⟨hassist, hlights, hwalk, hpower⟩ :=
    dispatch_common machineParams v.id v.b5 v.b6 (dispatchState v s)
  have hout := commitView_output_of_match h s
  rw [← ht] at hout
  rw [commitView_of_match h] at ht
  have hcfg : t.cfg = (dispatch machineParams v.id v.b5 v.b6 (dispatchState v s)).cfg := by rw [ht]; rfl
  rw [← hcfg] at hassist hlights hwalk hpower
  refine ⟨by rw [ht]; rfl, hassist, hlights, hwalk, hpower, ⟨_, hout, ?events⟩, fun n w hw => ?own,
    fun n hn => ?others⟩
  case events =>
    rw [hlights]
    exact (List.perm_append_singleton _ _).cons _
  case own =>
    rw [hcfg]
    exact dispatch_ownValues machineParams v.id v.b5 v.b6 (dispatchState v s) (n, w) hw
  case others =>
    rw [List.mem_append, not_or] at hn
    rw [hcfg, dispatch_sameRegistersBut machineParams v.id v.b5 v.b6 _ n hn.2]
    exact commonCfg_read v s.cfg hn.1

/-- A poll with these views commits as 42 R152 to R173 say. -/
theorem committed_commitView (v : View) (s : State) : Committed v s (commitView machineParams v s) := by
  obtain ⟨hstate, hindex, hbuf, henabled, htx, hacc, hmark, hsetup, hinputs, hoffers⟩ :=
    commit_frame machineParams v (dispatch_frame machineParams v.id v.b5 v.b6) s
  refine ⟨commitView_crcRx v s, henabled, ⟨hstate, hindex, fun a => congrArg (Memory.read · a) hbuf⟩, htx, hacc,
    ⟨hmark, hsetup, hinputs, hoffers⟩, ?_⟩
  rw [le16_eq_half]
  split
  case isTrue h => exact commitView_match_effect h rfl
  case isFalse h =>
    rw [commitView_of_mismatch h]
    exact ⟨rfl, rfl, rfl⟩

end Sys2Proof.Machine
end

section
/-! The message rows as instructions (42 R160 to R171; log 14). -/

namespace Sys2Proof.Machine

open Sys2Proof.Claims

/-! ### A message row runs the body of the poll of its frame -/

/-- A reserved message-ID dispatches nothing (42 R171). -/
theorem dispatch_of_reserved (p : Params) {id : Byte} (b5 b6 : Byte) (h : 9 ≤ id.toNat) :
    dispatch p id b5 b6 = dispatchMsgOther := by
  funext s
  unfold dispatch
  split
  case h_10 => rfl
  all_goals omega

/-- MSG7 is the body of the poll of its frame where the configuration is well formed (00 R9). -/
theorem exec_msg7 (f : RxFields) {s : State} (hw : setupWellFormed s.setup = true) :
    exec (.msg7 f) s = .next (commitView machineParams (viewOfFrame 7 f) s) :=
  configured_of_wellFormed (fun t => .next (commit machineParams (viewOfFrame 7 f) (dispatchMsg7 f.b5 f.b6) t)) hw

/-- MSG_OTHER is the body of the poll of its frame (42 R171). -/
theorem exec_msgOther {id : Byte} (f : RxFields) (s : State) (h : 9 ≤ id.toNat) :
    exec (.msgOther id f) s = .next (commitView machineParams (viewOfFrame id f) s) :=
  congrArg (fun own => Host.Outcome.next (commit machineParams (viewOfFrame id f) own s))
    (dispatch_of_reserved machineParams f.b5 f.b6 h).symm

/-- The instruction of the row a message-ID selects is the body of the poll of that frame (42 R158, log 14). -/
theorem exec_message (id : Byte) (f : RxFields) {s : State} (hw : setupWellFormed s.setup = true) :
    exec (message id f) s = .next (commitView machineParams (viewOfFrame id f) s) := by
  by_cases hid : 9 ≤ id.toNat
  · rw [message_of_reserved f hid, exec_msgOther f s hid]
  · obtain ⟨n, rfl⟩ : ∃ n : Fin 9, id = BitVec.ofNat 8 n.val := ⟨⟨id.toNat, by omega⟩, by simp⟩
    match n with
    | 7 => exact exec_msg7 f hw
    | 0 | 1 | 2 | 3 | 4 | 5 | 6 | 8 => rfl

/-- The body of the poll of a frame does what `Handled` says. -/
theorem handled_commitView (id : Byte) (f : RxFields) (s : State) :
    Handled id f s (commitView machineParams (viewOfFrame id f) s) := committed_commitView (viewOfFrame id f) s

/-- A frame is valid when its trailer is the CRC of the bytes it covers (42 R153). -/
theorem frameValid_iff (id : Byte) (f : RxFields) :
    FrameValid id f ↔ frameCrc machineParams (viewOfFrame id f).covered = (viewOfFrame id f).expected := by
  rw [FrameValid, le16_eq_half]
  rfl

/-- The body of the poll of a valid frame runs the message's own operation. -/
theorem commitView_of_frameValid {id : Byte} {f : RxFields} (h : FrameValid id f) (s : State) :
    commitView machineParams (viewOfFrame id f) s =
      ((((dispatch machineParams id f.b5 f.b6
        (dispatchState (viewOfFrame id f) s)).emit .persist).clearReady).armReceiver) :=
  commitView_of_match ((frameValid_iff id f).mp h) s

/-- The event of a valid frame's message is emitted (42 R157). -/
theorem mem_output_of_mem_ownEvents {id : Byte} {f : RxFields} (h : FrameValid id f) (s : State) {e : Event}
    (he : e ∈ ownEvents id f.b5 f.b6) : e ∈ (commitView machineParams (viewOfFrame id f) s).output := by
  rw [commitView_output_of_match ((frameValid_iff id f).mp h) s]
  exact List.mem_append_right _ (List.mem_cons_of_mem _ (List.mem_append_left _ he))

/-- A row that runs the body of the poll of its frame answers a next state, is handled as every frame, and on a valid
frame leaves the state that its own operation, `PERSIST` and the handoff lead to. -/
theorem answers_handled {id : Byte} {f : RxFields} {s : State} {i : Instr} {stored : State → Prop}
    (hexec : exec i s = .next (commitView machineParams (viewOfFrame id f) s))
    (hstored : stored ((((dispatch machineParams id f.b5 f.b6
      (dispatchState (viewOfFrame id f) s)).emit .persist).clearReady).armReceiver)) :
    ∃ t, exec i s = .next t ∧ Handled id f s t ∧ (FrameValid id f → stored t) := by
  refine ⟨_, hexec, handled_commitView id f s, fun hv => ?_⟩
  rw [commitView_of_frameValid hv]
  exact hstored

/-! ### One row after another -/

/-- Settles O23: the cutoff is stored, and the step computed from it is the message's event. -/
theorem msgZeroStoresTheCutoff : Obligations.MsgZeroStoresTheCutoff := by
  refine fun f s => ⟨rfl, commitView machineParams (viewOfFrame 0 f) s, rfl, handled_commitView 0 f s, fun hv => ?_⟩
  have hcutoff : (commitView machineParams (viewOfFrame 0 f) s).cfg.batteryLowVoltageCutoff = le16 f.b5 f.b6 := by
    rw [commitView_of_frameValid hv, le16_eq_half]
    rfl
  refine ⟨hcutoff, ?_⟩
  rw [hcutoff]
  exact mem_output_of_mem_ownEvents hv s (List.mem_singleton_self _)

/-- Settles O24: the perimeter is stored. -/
theorem msgOneStoresTheWheelPerimeter : Obligations.MsgOneStoresTheWheelPerimeter :=
  fun _ _ => ⟨rfl, answers_handled (id := 1) rfl (half_eq_shift_or _ _)⟩

/-- Settles O25: both bytes are stored, and the current is the message's event. -/
theorem msgTwoStoresSpeedAndCurrent : Obligations.MsgTwoStoresSpeedAndCurrent := by
  refine fun f s => ⟨rfl, commitView machineParams (viewOfFrame 2 f) s, rfl, handled_commitView 2 f s, fun hv => ?_⟩
  have hstored : (commitView machineParams (viewOfFrame 2 f) s).cfg.wheelMaxSpeed = f.b5 ∧
      (commitView machineParams (viewOfFrame 2 f) s).cfg.batteryMaxCurrent = f.b6 := by
    rw [commitView_of_frameValid hv]
    exact ⟨rfl, rfl⟩
  refine ⟨hstored.1, hstored.2, ?_⟩
  rw [hstored.2]
  exact mem_output_of_mem_ownEvents hv s (List.mem_singleton_self _)

/-- Settles O26: byte 5 and the two low bits of byte 6 are stored. -/
theorem msgThreeStoresMotorTypeAndFlags : Obligations.MsgThreeStoresMotorTypeAndFlags :=
  fun _ _ => ⟨rfl, answers_handled (id := 3) rfl ⟨rfl, rfl, rfl⟩⟩

/-- Settles O27: both bytes are stored. -/
theorem msgFourStoresBoostLevelAndDuration : Obligations.MsgFourStoresBoostLevelAndDuration :=
  fun _ _ => ⟨rfl, answers_handled (id := 4) rfl ⟨rfl, rfl⟩⟩

/-- Settles O28: both bytes are stored whole. -/
theorem msgFiveStoresFadeTimeAndFeature : Obligations.MsgFiveStoresFadeTimeAndFeature :=
  fun _ _ => ⟨rfl, answers_handled (id := 5) rfl ⟨rfl, rfl⟩⟩

/-- Settles O29: both limits are stored, whatever their order. -/
theorem msgSixStoresTemperatureLimits : Obligations.MsgSixStoresTemperatureLimits :=
  fun _ _ => ⟨rfl, answers_handled (id := 6) rfl ⟨rfl, rfl⟩⟩

/-- Settles O31: both bytes are stored whole. -/
theorem msgEightStoresWholeByteFlags : Obligations.MsgEightStoresWholeByteFlags :=
  fun _ _ => ⟨rfl, answers_handled (id := 8) rfl ⟨rfl, rfl⟩⟩

/-! ### The ramp-up rate and its step (42 R167, R168) -/

/-- The step of a valid rate is the truncated quotient, which 16 bits hold (42 R168). -/
theorem toNat_rampStep {rate : Byte} (h : rampInRange rate = true) :
    (rampStep rate).toNat = 97656 / rate.toNat := by
  obtain ⟨hmin, _⟩ := (rampInRange_iff rate).mp h
  have hquot : 97656 / rate.toNat ≤ 97656 / 4 := Nat.div_le_div_left hmin (by decide)
  exact Nat.mod_eq_of_lt (by omega : 97656 / rate.toNat < 2 ^ 16)

/-- Settles O35: the rate stored is valid, and a quotient by 4 to 100 lies between those by 100 and by 4. -/
theorem rampStepIsTheTruncatedQuotient : Obligations.RampStepIsTheTruncatedQuotient := by
  intro rampDefault r hdefault
  have hrate := rampRate_inRange hdefault r
  obtain ⟨hmin, hmax⟩ := (rampInRange_iff _).mp hrate
  rw [toNat_rampStep hrate]
  refine ⟨hrate, Nat.div_mul_le_self _ _, ?_, ?_, ?_⟩
  · rw [Nat.mul_comm]
    exact Nat.lt_mul_div_succ _ (by omega)
  · exact (Nat.div_le_div_left hmax (by omega) : 97656 / 100 ≤ _)
  · exact (Nat.div_le_div_left hmin (by decide) : _ ≤ 97656 / 4)

/-- Settles O30: the rate stored is the received one or the default, and the step belongs to it. -/
theorem msgSevenStoresRampAndCruise : Obligations.MsgSevenStoresRampAndCruise := by
  refine fun f s hw => ⟨rfl, commitView machineParams (viewOfFrame 7 f) s, exec_msg7 f hw, handled_commitView 7 f s,
    fun hv => ?_⟩
  have hstored : (commitView machineParams (viewOfFrame 7 f) s).cfg.rampUpRateX10 = rampRate s.setup.rampDefault f.b5 ∧
      (commitView machineParams (viewOfFrame 7 f) s).cfg.rampUpStep = rampStep (rampRate s.setup.rampDefault f.b5) ∧
      (commitView machineParams (viewOfFrame 7 f) s).cfg.targetCruiseSpeed = f.b6 := by
    rw [commitView_of_frameValid hv]
    exact ⟨rfl, rfl, rfl⟩
  obtain ⟨hrate, hstep, hcruise⟩ := hstored
  rw [hrate, hstep, ← storedRate_eq_rampRate]
  refine ⟨fun hin => if_pos hin, fun hout => if_neg (by omega), ?_, hcruise⟩
  rw [storedRate_eq_rampRate]
  exact toNat_rampStep (rampRate_inRange hw f.b5)

/-! ### Reserved IDs, and several frames -/

/-- Settles O32: a reserved message-ID has no register and no event of its own. -/
theorem reservedMessageAppliesCommonFieldsOnly : Obligations.ReservedMessageAppliesCommonFieldsOnly := by
  refine fun id f s hid => ⟨(decode_rxfBytes id f).trans (congrArg Except.ok (message_of_reserved f hid)), _,
    exec_msgOther f s hid, handled_commitView id f s, fun hv => ?_⟩
  obtain ⟨hregisters, _, hevents⟩ := own_of_reserved s.setup.rampDefault f.b5 f.b6 hid
  obtain ⟨_, _, _, _, _, hemits, _, hothers⟩ := commitView_match_effect ((frameValid_iff id f).mp hv) (s := s) rfl
  change Emits s _ (_ :: _ :: ownEvents id f.b5 f.b6) at hemits
  change SameRegistersBut ([0, 1, 2, 3] ++ ownRegisters id) s _ at hothers
  rw [hevents] at hemits
  rw [hregisters] at hothers
  exact ⟨hemits, hothers⟩

/-- Settles O33: `LIGHTS` is emitted with the common fields, `PERSIST` after the message's own operation. -/
theorem matchingFrameEventOrder : Obligations.MatchingFrameEventOrder := by
  intro id f s t hv hw ht
  obtain rfl := Host.Outcome.next.inj ((exec_message id f hw).symm.trans ht)
  exact commitView_output_of_match ((frameValid_iff id f).mp hv) s

/-- The message-ID that a register belongs to (10 R33). -/
def registerOwner (n : Fin 22) : Nat :=
  [0, 0, 0, 0, 0, 1, 2, 2, 3, 3, 3, 4, 4, 5, 5, 6, 6, 7, 7, 7, 8, 8].getD n.val 0

/-- A register of a message's own belongs to that message only, and is no common one (10 R33). -/
theorem owner_of_mem_ownRegisters {id : Byte} {n : Fin 22} (h : n ∈ ownRegisters id) :
    id.toNat = registerOwner n ∧ n ∉ ([0, 1, 2, 3] : List (Fin 22)) := by
  unfold ownRegisters at h
  split at h <;> fin_cases h <;> exact ⟨by assumption, by decide⟩

/-- A register of one message's own is neither a common one nor one of another message. -/
theorem not_mem_registers_of_other {i j : Byte} (hij : i ≠ j) {n : Fin 22} (h : n ∈ ownRegisters i) :
    n ∉ [0, 1, 2, 3] ++ ownRegisters j := by
  obtain ⟨howner, hcommon⟩ := owner_of_mem_ownRegisters h
  rw [List.mem_append, not_or]
  exact ⟨hcommon, fun hj => hij (BitVec.eq_of_toNat_eq (howner.trans (owner_of_mem_ownRegisters hj).1.symm))⟩

/-- Settles O34: each frame changes only the common registers and those of its own ID, and the IDs share none. -/
theorem consecutiveMessagesKeepTheirOwnFields : Obligations.ConsecutiveMessagesKeepTheirOwnFields := by
  intro i j f g s t u hij hvi hvj hw ht hu
  have hti := Host.Outcome.next.inj (ht.symm.trans (exec_message i f hw))
  have hwt : setupWellFormed t.setup = true := by
    obtain ⟨_, _, _, _, _, ⟨_, hsetup, _⟩, _⟩ := handled_commitView i f s
    rw [hti, hsetup, hw]
  have huj := Host.Outcome.next.inj (hu.symm.trans (exec_message j g hwt))
  obtain ⟨_, hassist, hlights, hwalk, hpower, _, _, hothers⟩ :=
    commitView_match_effect ((frameValid_iff i f).mp hvi) hti
  obtain ⟨_, hassist', hlights', hwalk', hpower', _, _, hothers'⟩ :=
    commitView_match_effect ((frameValid_iff j g).mp hvj) huj
  exact ⟨⟨hassist, hlights, hwalk, hpower⟩, ⟨hassist', hlights', hwalk', hpower'⟩, hothers, hothers',
    fun n hn => hothers' n (not_mem_registers_of_other hij hn),
    fun n hn => hothers n (not_mem_registers_of_other hij.symm hn)⟩

end Sys2Proof.Machine
end

section
/-! The frame receiver over one byte and over a sequence of bytes (41 R130 to R141). -/

namespace Sys2Proof.Machine

open Sys2Proof.Claims

/-! ### One byte -/

/-- Settles O12, by the equation of RX_BYTE in each of its cases. -/
theorem rxByteFollowsTheReceiver : Obligations.RxByteFollowsTheReceiver := by
  refine fun b s => ⟨decodeCmd_cmdWord 0 b, fun he => ?dropped, fun he hs hb => ?start, fun he hs hb => ?noise,
    fun he hs hi => ?middle, fun he hs hi => ?last⟩
  case dropped => exact exec_rxByte_of_ok (receiveByte_disabled b he)
  case start =>
    subst hb
    have hok := receiveByte_start he hs
    exact ⟨_, exec_rxByte_of_ok hok, rfl, rfl, Memory.read_write_same _ _ _,
      fun a ha => Memory.read_write_other _ _ ha, rfl, he, sameOutsideReceiver_of_receiveByte hok⟩
  case noise =>
    have hok := receiveByte_noise he hs hb
    exact ⟨_, exec_rxByte_of_ok hok, rfl, rfl, fun _ => rfl, rfl, he, sameOutsideReceiver_of_receiveByte hok⟩
  case middle =>
    have hexec := exec_rxByte_middle b he hs hi
    exact ⟨_, hexec, rfl, by rw [State.setReceiver_rxIndex]; bv_omega, Memory.read_write_same _ _ _,
      fun a ha => Memory.read_write_other _ _ ha, rfl, he, sameOutsideReceiver_of_receiveByte (exec_rxByte hexec)⟩
  case last =>
    have hexec := exec_rxByte_last b he hs hi
    rw [hi] at hexec
    exact ⟨_, hexec, rfl, rfl, Memory.read_write_same _ _ _, fun a ha => Memory.read_write_other _ _ ha, rfl, rfl,
      sameOutsideReceiver_of_receiveByte (exec_rxByte hexec)⟩

/-- A store outside the buffer faults (20 R61; log 13). -/
theorem storeRx_of_ge (s : State) {a : Nat} (b : Byte) (h : rxFrameLen ≤ a) : s.storeRx a b = .error .rxOffset :=
  if_neg (Nat.not_lt.mpr h)

/-- Settles O13: the index is an offset outside the buffer. -/
theorem rxByteOutsideTheBufferFaults : Obligations.RxByteOutsideTheBufferFaults := by
  intro b s he hs hi
  simp only [exec, execRxByte, receiveByte, he, hs, if_true, collectByte, storeRx_of_ge s b hi, outcomeOf]

/-! ### A sequence of bytes -/

/-- Instructions that answer a next state hand it to the instructions after them. -/
theorem runInstrs_append {front : List Instr} (back : List Instr) {s t : State} (h : runInstrs front s = .next t) :
    runInstrs (front ++ back) s = runInstrs back t := by
  induction front generalizing s with
  | nil => rw [Host.Outcome.next.inj h, List.nil_append]
  | cons i rest ih =>
    rw [List.cons_append]
    cases hi : exec i s with
    | next u => rw [runInstrs_cons_of_next _ hi] at h ⊢; exact ih h
    | fault f => simp only [runInstrs, hi] at h; cases h
    | refused r => simp only [runInstrs, hi] at h; cases h

/-- In IDLE with the channel enabled noise leaves everything but the index, which is 0 anyway (41 R135). -/
theorem runInstrs_noise (noise : List Byte) {s : State} (he : s.rxEnabled = true) (hs : s.rxState = .idle)
    (hnoise : ∀ b, b ∈ noise → b ≠ rxStart) :
    ∃ t, runInstrs (noise.map .rxByte) s = .next t ∧ t.rxEnabled = true ∧ t.rxState = .idle ∧ t.ready = s.ready ∧
      SameOutsideReceiver s t := by
  induction noise generalizing s with
  | nil => exact ⟨s, rfl, he, hs, rfl, rfl, rfl, rfl, rfl, rfl, rfl, rfl, rfl, rfl⟩
  | cons b rest ih =>
    have hfirst := exec_rxByte_of_ok (receiveByte_noise he hs (hnoise b List.mem_cons_self))
    obtain ⟨t, hrest, ht⟩ := ih (s := s.setReceiver .idle 0) he rfl fun c hc => hnoise c (List.mem_cons_of_mem b hc)
    exact ⟨t, (runInstrs_cons_of_next _ hfirst).trans hrest, ht⟩

/-- While the channel is disabled every byte is dropped (41 R130). -/
theorem runInstrs_dropped (bytes : List Byte) {s : State} (h : s.rxEnabled = false) :
    runInstrs (bytes.map .rxByte) s = .next s := by
  induction bytes with
  | nil => rfl
  | cons b rest ih => exact (runInstrs_cons_of_next _ (exec_rxByte_of_ok (receiveByte_disabled b h))).trans ih

/-- In COLLECTING, fewer bytes than the frame lacks leave `ready` and the channel as they are (41 R133). -/
theorem runInstrs_part_of_frame (part : List Byte) {s : State} (he : s.rxEnabled = true)
    (hs : s.rxState = .collecting) (hlen : s.rxIndex.toNat + part.length ≤ 8) :
    ∃ u, runInstrs (part.map .rxByte) s = .next u ∧ u.ready = s.ready ∧ u.rxEnabled = true := by
  induction part generalizing s with
  | nil => exact ⟨s, rfl, rfl, he⟩
  | cons b rest ih =>
    rw [List.length_cons] at hlen
    have hindex : (s.rxIndex + 1).toNat = s.rxIndex.toNat + 1 := by bv_omega
    have hfirst := exec_rxByte_middle b he hs (by omega)
    obtain ⟨u, hrest, hu⟩ := ih
      (s := (s.setRxBuf (Memory.write s.rxBuf s.rxIndex.toNat b)).setReceiver .collecting (s.rxIndex + 1))
      he rfl (by rw [State.setReceiver_rxIndex, hindex]; omega)
    exact ⟨u, (runInstrs_cons_of_next _ hfirst).trans hrest, hu⟩

/-- From IDLE with the channel enabled, a start byte and fewer than eight further bytes leave `ready` and the channel as
they are (41 R132, R133). -/
theorem runInstrs_start_and_part (part : List Byte) {s : State} (he : s.rxEnabled = true) (hs : s.rxState = .idle)
    (hlen : part.length < 8) :
    ∃ u, runInstrs ((rxStart :: part).map .rxByte) s = .next u ∧ u.ready = s.ready ∧ u.rxEnabled = true := by
  obtain ⟨u, hpart, hu⟩ := runInstrs_part_of_frame part
    (s := (s.setRxBuf (Memory.write s.rxBuf 0 rxStart)).setReceiver .collecting 1) he rfl
    (by rw [State.setReceiver_rxIndex]; bv_omega)
  exact ⟨u, (runInstrs_cons_of_next _ (exec_rxByte_of_ok (receiveByte_start he hs))).trans hpart, hu⟩

/-- Settles O14: noise is ignored, the frame is collected, its last byte disables the channel; a shorter part ends in
the noise or in the middle of the frame. -/
theorem nineBytesFromAStartMarkerMakeAFrame : Obligations.NineBytesFromAStartMarkerMakeAFrame := by
  refine fun s noise rest tail he hs hnoise hlen => ⟨?whole, fun n hn => ?part⟩
  case whole =>
    obtain ⟨t, hrun, het, hst, _, hsame⟩ := runInstrs_noise noise he hs hnoise
    refine ⟨(t.setRxBuf (Memory.writeFrom t.rxBuf 0 (rxStart :: rest))).completeFrame, ?_,
      holds_of_rxBuf_eq_writeFrom (by rw [List.length_cons, hlen]; rfl) rfl, rfl, rfl, rfl, rfl, hsame⟩
    rw [List.map_append, List.map_append, List.append_assoc, runInstrs_append _ hrun]
    exact (runInstrs_append _ (runInstrs_frame rest het hst hlen)).trans (runInstrs_dropped tail rfl)
  case part =>
    by_cases hle : n ≤ noise.length
    · obtain ⟨u, hrun, heu, _, hready, _⟩ :=
        runInstrs_noise (noise.take n) he hs fun b hb => hnoise b (List.mem_of_mem_take hb)
      exact ⟨u, by rw [List.take_append_of_le_length hle, hrun], hready, heu⟩
    · obtain ⟨t, hrun, het, hst, hready, _⟩ := runInstrs_noise noise he hs hnoise
      obtain ⟨k, rfl⟩ : ∃ k, n = noise.length + (k + 1) := ⟨n - noise.length - 1, by omega⟩
      obtain ⟨u, hpart, hready', heu⟩ := runInstrs_start_and_part (rest.take k) het hst
        ((List.length_take_le k rest).trans_lt (by omega))
      refine ⟨u, ?_, hready'.trans hready, heu⟩
      rw [List.take_length_add_append, List.take_succ_cons, List.map_append, runInstrs_append _ hrun]
      exact hpart

/-! ### A byte and a send -/

/-- The receiver takes the same byte in the same way before and after a send (43 R208). -/
theorem receiveByte_emitFrame {b : Byte} {s t : State} (p : Params) (q : TxPayload) (h : receiveByte b s = .ok t) :
    receiveByte b (emitFrame p q s) = .ok (emitFrame p q t) := by
  rcases receiveByte_cases h with ⟨he, rfl⟩ | ⟨he, hs, hb, rfl⟩ | ⟨he, hs, rfl, rfl⟩ | ⟨he, hs, hi, hn, rfl⟩ |
    ⟨he, hs, hi, hn, rfl⟩
  · exact receiveByte_disabled (s := emitFrame p q t) b he
  · exact receiveByte_noise (s := emitFrame p q s) he hs hb
  · exact receiveByte_start (s := emitFrame p q s) he hs
  · exact receiveByte_completes (s := emitFrame p q s) b he hs hi hn
  · exact receiveByte_advances (s := emitFrame p q s) b he hs hi hn

/-- Settles O39: a byte changes neither the inputs nor `cfg[20]`, so both orders send the same frame. -/
theorem sendCommutesWithRxByte : Obligations.SendCommutesWithRxByte := by
  intro b s t u hbyte hsend
  have hb := exec_rxByte hbyte
  obtain ⟨_, _, _, hcfg, _, _, _, hinputs, _⟩ := receiveByte_frame hb
  obtain rfl := Host.Outcome.next.inj ((exec_sendTelemetry s).symm.trans hsend)
  refine ⟨_, exec_sendTelemetry t, ?_⟩
  rw [hcfg, hinputs]
  exact exec_rxByte_of_ok (receiveByte_emitFrame _ _ hb)

end Sys2Proof.Machine
end

section
/-! What the buffer holds at the instants of a poll's interval (42 R151; log 9). -/

namespace Sys2Proof.Machine

/-- An RX_BYTE step leaves the buffer or writes its byte at one offset of it. -/
theorem rxBuf_of_receiveByte {b : Byte} {s t : State} (h : receiveByte b s = .ok t) :
    t.rxBuf = s.rxBuf ∨ ∃ a, t.rxBuf = Memory.write s.rxBuf a b := by
  rcases receiveByte_cases h with ⟨_, rfl⟩ | ⟨_, _, _, rfl⟩ | ⟨_, _, _, rfl⟩ | ⟨_, _, _, _, rfl⟩ | ⟨_, _, _, _, rfl⟩
  · exact .inl rfl
  · exact .inl rfl
  all_goals exact .inr ⟨_, rfl⟩

/-- An arrival of the interval that opens in `s` writes byte `b` at offset `a` of the buffer. -/
def WrittenInInterval (s : State) (bytes : List Byte) (a : Nat) (b : Byte) : Prop :=
  ∃ before after t t' ms, bytes = before ++ b :: after ∧ runArrivals before s = .ok (ms, t) ∧
    receiveByte b t = .ok t' ∧ t'.rxBuf = Memory.write t.rxBuf a b

/-- The arrivals of an interval after its first one, put together with it. -/
theorem runArrivals_cons_of_ok {b : Byte} {rest : List Byte} {s t u : State} {later : List Memory}
    (hb : receiveByte b s = .ok t) (hrest : runArrivals rest t = .ok (later, u)) :
    runArrivals (b :: rest) s = .ok (s.rxBuf :: later, u) := by
  simp only [runArrivals, hb, hrest]

/-- What is written after the first arrival is written in the interval. -/
theorem WrittenInInterval.cons {b c : Byte} {rest : List Byte} {s t : State} {a : Nat} (hb : receiveByte b s = .ok t)
    (h : WrittenInInterval t rest a c) : WrittenInInterval s (b :: rest) a c := by
  obtain ⟨before, after, v, v', ms, rfl, hrun, hc, hwrite⟩ := h
  exact ⟨b :: before, after, v, v', _, rfl, runArrivals_cons_of_ok hb hrun, hc, hwrite⟩

/-- At every instant of an interval a byte is as at the opening, or an arrival of the interval wrote it. -/
theorem read_instant {bytes : List Byte} {s u : State} {instants : List Memory}
    (h : runArrivals bytes s = .ok (instants, u)) (a : Nat) :
    ∀ m ∈ instants, Memory.read m a = Memory.read s.rxBuf a ∨
      ∃ b, WrittenInInterval s bytes a b ∧ Memory.read m a = some b := by
  induction bytes generalizing s instants with
  | nil =>
    simp only [runArrivals, Except.ok.injEq, Prod.mk.injEq] at h
    obtain ⟨rfl, _⟩ := h
    intro m hm
    exact .inl (by rw [List.mem_singleton.mp hm])
  | cons b rest ih =>
    obtain ⟨t, later, hb, hrest, rfl⟩ := runArrivals_cons h
    intro m hm
    rcases List.mem_cons.mp hm with rfl | hm
    · exact .inl rfl
    · rcases ih hrest m hm with hread | ⟨c, hc, hread⟩
      · rcases rxBuf_of_receiveByte hb with hbuf | ⟨x, hbuf⟩
        · exact .inl (by rw [hread, hbuf])
        · by_cases hx : a = x
          · subst hx
            exact .inr ⟨b, ⟨[], rest, s, t, _, rfl, rfl, hb, hbuf⟩, by rw [hread, hbuf, Memory.read_write_same]⟩
          · exact .inl (by rw [hread, hbuf, Memory.read_write_other _ b hx])
      · exact .inr ⟨c, hc.cons hb, hread⟩

/-- What an arrival of an interval writes is there at some instant of it. -/
theorem exists_instant_of_written {before after : List Byte} {b : Byte} {s t t' u : State}
    {ms instants : List Memory} {a : Nat} (h : runArrivals (before ++ b :: after) s = .ok (instants, u))
    (hbefore : runArrivals before s = .ok (ms, t)) (hb : receiveByte b t = .ok t')
    (hwrite : t'.rxBuf = Memory.write t.rxBuf a b) : ∃ m ∈ instants, Memory.read m a = some b := by
  induction before generalizing s instants ms with
  | nil =>
    simp only [runArrivals, Except.ok.injEq, Prod.mk.injEq] at hbefore
    obtain ⟨_, rfl⟩ := hbefore
    obtain ⟨v, later, hv, hafter, rfl⟩ := runArrivals_cons h
    obtain rfl := Except.ok.inj (hb.symm.trans hv)
    refine ⟨t'.rxBuf, List.mem_cons_of_mem _ (List.mem_of_mem_head? ?_), by rw [hwrite, Memory.read_write_same]⟩
    rw [runArrivals_head hafter]
    rfl
  | cons c rest ih =>
    obtain ⟨v, later, hv, hrest, rfl⟩ := runArrivals_cons h
    obtain ⟨v', ms', hv', hrest', _⟩ := runArrivals_cons hbefore
    obtain rfl := Except.ok.inj (hv.symm.trans hv')
    obtain ⟨m, hm, hread⟩ := ih hrest hrest'
    exact ⟨m, List.mem_cons_of_mem _ hm, hread⟩

/-- The buffer that a read at instant `k` sees: an instant past the last is the opening (log 9). -/
theorem instant_mem {bytes : List Byte} {s u : State} {instants : List Memory}
    (h : runArrivals bytes s = .ok (instants, u)) (k : Nat) : instants.getD k (instants.headD []) ∈ instants := by
  have hhead := runArrivals_head h
  cases instants with
  | nil => cases hhead
  | cons m later =>
    rw [List.getD_eq_getElem?_getD]
    cases hk : (m :: later)[k]? with
    | none => exact List.mem_cons_self
    | some m' => exact List.mem_of_getElem? hk

/-- Settles O18, by induction over the arrivals. -/
theorem pollReadsValuesOfItsInterval : Obligations.PollReadsValuesOfItsInterval := by
  refine fun bytes s instants u h a => ⟨fun k => ?seen, fun before b after t t' ms hbytes hbefore hb hwrite => ?there⟩
  case seen =>
    rcases read_instant h a _ (instant_mem h k) with hread | ⟨b, ⟨before, after, t, t', ms, hw⟩, hread⟩
    · exact .inl hread
    · obtain ⟨hbytes, hbefore, hb, hwrite⟩ := hw
      exact .inr ⟨before, b, after, t, t', ms, hbytes, hbefore, hb, hwrite, hread⟩
  case there =>
    subst hbytes
    obtain ⟨m, hm, hread⟩ := exists_instant_of_written h hbefore hb hwrite
    obtain ⟨k, hk⟩ := List.getElem?_of_mem hm
    exact ⟨k, by rw [List.getD_eq_getElem?_getD, hk, Option.getD_some, hread]⟩

end Sys2Proof.Machine
end

section
/-! DECODE_POLL: what it commits, and when its reads agree on the buffer (42 R150 to R151, R174, R175). -/

namespace Sys2Proof.Machine

open Sys2Proof.Claims

/-! ### An equation per case -/

/-- With a well-formed configuration the instruction is the operation. -/
theorem exec_decodePoll_eq {s : State} (hw : setupWellFormed s.setup = true) :
    exec .decodePoll s = decodePoll machineParams s := configured_of_wellFormed _ hw

/-- With an ill-formed configuration it is refused (00 R9). -/
theorem exec_decodePoll_of_badConfig {s : State} (hw : setupWellFormed s.setup = false) :
    exec .decodePoll s = .next (s.mark .badConfig) := by
  simp only [exec, execDecodePoll, configured, hw, if_neg Bool.false_ne_true, refuse]

/-- With `ready` 0 a poll does nothing (42 R150). -/
theorem decodePoll_of_not_ready (p : Params) {s : State} (h : s.ready = false) : decodePoll p s = .next s := by
  simp only [decodePoll, h, if_neg Bool.false_ne_true]

/-- An ATOMIC poll commits in the state it opens in (42 R151). -/
theorem decodePoll_of_atomic (p : Params) {s : State} (hr : s.ready = true) (hv : s.setup.decodeView = .atomic) :
    decodePoll p s = .next (commitView p (viewOf p s.rxBuf) s) := by
  simp only [decodePoll, hr, if_true, hv]

/-- A PREEMPTIBLE poll commits in the state after the arrivals of its interval (42 R151, log 9). -/
theorem decodePoll_of_preemptible (p : Params) {s u : State} {instants : List Memory} (hr : s.ready = true)
    (hv : s.setup.decodeView = .preemptible) (ha : runArrivals s.inputs.arrivals s = .ok (instants, u)) :
    decodePoll p s = .next (commitView p (viewAt p instants s.inputs) u) := by
  simp only [decodePoll, hr, if_true, hv, pollPreemptible, ha]

/-- Settles O16: neither view is looked at. -/
theorem pollWithoutAFrameDoesNothing : Obligations.PollWithoutAFrameDoesNothing :=
  fun _ hw hr => (exec_decodePoll_eq hw).trans (decodePoll_of_not_ready machineParams hr)

/-- An RX_BYTE step never takes `ready` back (41 R134, 10 R25). -/
theorem ready_of_receiveByte {b : Byte} {s t : State} (hr : s.ready = true) (h : receiveByte b s = .ok t) :
    t.ready = true := by
  rcases receiveByte_cases h with ⟨_, rfl⟩ | ⟨_, _, _, rfl⟩ | ⟨_, _, _, rfl⟩ | ⟨_, _, _, _, rfl⟩ | ⟨_, _, _, _, rfl⟩
  case inr.inr.inr.inl => rfl
  all_goals exact hr

/-- Settles O17: under both views the poll is a commit, which does what 42 R152 to R173 say. -/
theorem pollCommitsItsViews : Obligations.PollCommitsItsViews := by
  refine fun s hw hr => ⟨fun hv => ?atomic, fun hv instants u ha => ?preemptible⟩
  case atomic =>
    exact ⟨_, (exec_decodePoll_eq hw).trans (decodePoll_of_atomic machineParams hr hv), committed_commitView _ _⟩
  case preemptible =>
    exact ⟨runArrivals_keeps (P := fun t => t.ready = true) (fun _ _ _ => ready_of_receiveByte) ha hr, _,
      (exec_decodePoll_eq hw).trans (decodePoll_of_preemptible machineParams hr hv ha), committed_commitView _ _⟩

/-! ### Polls whose reads agree -/

/-- An interval in which no byte is accepted leaves the state, and the buffer is the same at each of its instants. -/
theorem runArrivals_of_none_accepted {bytes : List Byte} {s : State} (h : s.rxEnabled = false ∨ bytes = []) :
    ∃ instants, runArrivals bytes s = .ok (instants, s) ∧ ∀ m ∈ instants, m = s.rxBuf := by
  induction bytes with
  | nil => exact ⟨[s.rxBuf], rfl, fun m hm => List.mem_singleton.mp hm⟩
  | cons b rest ih =>
    have he : s.rxEnabled = false := h.resolve_right (List.cons_ne_nil b rest)
    obtain ⟨later, hrest, hlater⟩ := ih (.inl he)
    exact ⟨s.rxBuf :: later, runArrivals_cons_of_ok (receiveByte_disabled b he) hrest,
      List.forall_mem_cons.mpr ⟨rfl, hlater⟩⟩

/-- Where the buffer is the same at every instant, a pre-emptible poll has the views of an atomic one. -/
theorem viewAt_eq_viewOf (p : Params) (inp : Inputs) {bytes : List Byte} {s u : State} {instants : List Memory}
    (h : runArrivals bytes s = .ok (instants, u)) (hsame : ∀ m ∈ instants, m = s.rxBuf) :
    viewAt p instants inp = viewOf p s.rxBuf := by
  simp only [viewAt, byteAt, hsame _ (instant_mem h _), viewOf]

/-- Every read of the poll sees the buffer as it is at the opening: ATOMIC, a disabled channel, or no arrival. -/
def ReadsAgree (s : State) : Prop :=
  s.setup.decodeView = .atomic ∨ s.rxEnabled = false ∨ s.inputs.arrivals = []

/-- A poll whose reads agree commits in the state it opens in, with the buffer's bytes. -/
theorem decodePoll_of_readsAgree (p : Params) {s : State} (hr : s.ready = true) (h : ReadsAgree s) :
    decodePoll p s = .next (commitView p (viewOf p s.rxBuf) s) := by
  cases hv : s.setup.decodeView with
  | atomic => exact decodePoll_of_atomic p hr hv
  | preemptible =>
    obtain ⟨instants, ha, hsame⟩ := runArrivals_of_none_accepted (h.resolve_left (by rw [hv]; nofun))
    rw [decodePoll_of_preemptible p hr hv ha, viewAt_eq_viewOf p s.inputs ha hsame]

/-! ### `DECODE_VIEW` does not reach the commit (42 R174) -/

/-- The state with another value of `DECODE_VIEW`. -/
def State.withView (s : State) (d : DecodeView) : State := { s with setup := { s.setup with decodeView := d } }

/-- A message's own operation does not look at `DECODE_VIEW`. -/
theorem dispatch_withView (p : Params) (id b5 b6 : Byte) (s : State) (d : DecodeView) :
    dispatch p id b5 b6 (s.withView d) = (dispatch p id b5 b6 s).withView d := by
  unfold dispatch
  split <;> rfl

/-- A commit does not look at `DECODE_VIEW`. -/
theorem commitView_withView (v : View) (s : State) (d : DecodeView) :
    commitView machineParams v (s.withView d) = (commitView machineParams v s).withView d := by
  by_cases h : frameCrc machineParams v.covered = v.expected
  · have hdispatch := dispatch_withView machineParams v.id v.b5 v.b6 (dispatchState v s) d
    rw [commitView_of_match h, commitView_of_match h]
    exact congrArg (fun t => ((t.emit .persist).clearReady).armReceiver) hdispatch
  · rw [commitView_of_mismatch h, commitView_of_mismatch h]
    rfl

/-- With the channel disabled a poll leads to one state under both views, but for `DECODE_VIEW` itself. -/
theorem decodePoll_withView_of_disabled {s : State} (he : s.rxEnabled = false) :
    ∃ u : State, ∀ d, decodePoll machineParams (s.withView d) = .next (u.withView d) := by
  cases hr : s.ready with
  | false => exact ⟨s, fun d => decodePoll_of_not_ready machineParams (s := s.withView d) hr⟩
  | true =>
    exact ⟨commitView machineParams (viewOf machineParams s.rxBuf) s, fun d =>
      (decodePoll_of_readsAgree machineParams (s := s.withView d) hr (.inr (.inl he))).trans
        (congrArg Host.Outcome.next (commitView_withView _ s d))⟩

/-- Settles O19: with the channel disabled the reads agree under both views. -/
theorem disabledChannelMakesPollsAtomic : Obligations.DisabledChannelMakesPollsAtomic := by
  intro s he t h
  change exec .decodePoll (s.withView .atomic) = .next t at h
  change exec .decodePoll (s.withView .preemptible) = .next (t.withView .preemptible)
  rcases exec_decodePoll h with ⟨hw, rfl⟩ | ⟨hw, hpoll⟩
  · exact exec_decodePoll_of_badConfig hw
  · obtain ⟨u, hu⟩ := decodePoll_withView_of_disabled he
    obtain rfl := Host.Outcome.next.inj ((hu .atomic).symm.trans hpoll)
    exact (exec_decodePoll_eq (s := s.withView .preemptible) hw).trans (hu .preemptible)

/-! ### The message in the buffer -/

/-- A receive frame that the layout reads is the frame of a row of the message map (30 R81, R88). -/
theorem rxfBytes_of_decodeRxf {bytes : List Byte} {i : Instr} (h : decodeRxf bytes = some i) :
    ∃ id f, bytes = rxfBytes id f ∧ i = message id f := by
  unfold decodeRxf at h
  split at h
  · split at h
    next hstart => exact ⟨_, _, by rw [hstart]; rfl, (Option.some.inj h).symm⟩
    next => cases h
  · cases h

/-- The views of a buffer that holds a frame are that frame. -/
theorem viewOf_of_holds (p : Params) {s : State} {id : Byte} {f : RxFields} (h : Holds s (rxfBytes id f)) :
    viewOf p s.rxBuf = viewOfFrame id f := by
  obtain ⟨_, hread⟩ := h
  have hcontents : ∀ a, a < 9 → Memory.contents p s.rxBuf a = ((rxfBytes id f)[a]?).getD (p.rxBufAtReset a) :=
    fun a ha => congrArg (Option.getD · _) (hread a ha)
  simp only [viewOf, viewOfFrame, hcontents _ (by decide : 0 < 9), hcontents _ (by decide : 1 < 9),
    hcontents _ (by decide : 2 < 9), hcontents _ (by decide : 3 < 9), hcontents _ (by decide : 4 < 9),
    hcontents _ (by decide : 5 < 9), hcontents _ (by decide : 6 < 9), hcontents _ (by decide : 7 < 9),
    hcontents _ (by decide : 8 < 9)]
  rfl

/-- Settles O20: the views of the poll are the frame, and the row's instruction is the commit of that frame. -/
theorem pollRunsTheBufferedMessage : Obligations.PollRunsTheBufferedMessage := by
  intro s bytes i hr hholds hdecode hw hagree
  obtain ⟨id, f, rfl, rfl⟩ := rxfBytes_of_decodeRxf (decodeRxf_of_decode hdecode)
  rw [exec_decodePoll_eq hw, decodePoll_of_readsAgree machineParams hr hagree, viewOf_of_holds machineParams hholds,
    exec_message id f hw]

/-! ### A poll after a mismatch -/

/-- A commit that leaves `ready` 1 found a mismatch (42 R154, R155). -/
theorem mismatch_of_ready {v : View} {s : State} (h : (commitView machineParams v s).ready = true) :
    frameCrc machineParams v.covered ≠ v.expected := by
  intro hmatch
  rw [commitView_of_match hmatch] at h
  cases h

/-- Without arrivals the reads agree, whatever the view. -/
theorem readsAgree_of_no_arrivals {s : State} (h : s.setup.decodeView = .preemptible → s.inputs.arrivals = []) :
    ReadsAgree s := by
  cases hv : s.setup.decodeView with
  | atomic => exact .inl hv
  | preemptible => exact .inr (.inr (h hv))

/-- Settles O21: the second poll reads the same bytes, so it writes the same CRC and re-arms an armed receiver. -/
theorem repeatedMismatchChangesNothing : Obligations.RepeatedMismatchChangesNothing := by
  intro s t hw hr hquiet ht hrt
  rw [exec_decodePoll_eq hw, decodePoll_of_readsAgree machineParams hr (readsAgree_of_no_arrivals hquiet)] at ht
  have hts := Host.Outcome.next.inj ht
  have hmismatch := mismatch_of_ready (hts ▸ hrt)
  rw [commitView_of_mismatch hmismatch] at hts
  have hbuf : t.rxBuf = s.rxBuf := by rw [← hts]; rfl
  have hwt : setupWellFormed t.setup = true := by rw [← hts]; exact hw
  have hquiet' : t.setup.decodeView = .preemptible → t.inputs.arrivals = [] := by rw [← hts]; exact hquiet
  rw [exec_decodePoll_eq hwt, decodePoll_of_readsAgree machineParams hrt (readsAgree_of_no_arrivals hquiet'), hbuf,
    commitView_of_mismatch hmismatch, ← hts]
  rfl

end Sys2Proof.Machine
end

section
/-! What one operation leaves unchanged (10 R42, 41 R139). -/

namespace Sys2Proof.Machine

open Sys2Proof.Claims

/-- A commit moves neither the receiver nor its buffer. -/
theorem sameReceiver_commitView (v : View) (s : State) : SameReceiver s (commitView machineParams v s) := by
  obtain ⟨_, _, hreceiver, _⟩ := committed_commitView v s
  exact hreceiver

/-- A commit leaves `crc_tx`, `crc_acc`, the mark, the parameters and the environment's fields. -/
theorem sameRest_commitView (v : View) (s : State) :
    (commitView machineParams v s).crcTx = s.crcTx ∧ (commitView machineParams v s).crcAcc = s.crcAcc ∧
      SameRest s (commitView machineParams v s) := by
  obtain ⟨_, _, _, htx, hacc, hrest, _⟩ := committed_commitView v s
  exact ⟨htx, hacc, hrest⟩

/-- A poll leaves `crc_tx`, `crc_acc`, the mark, the parameters and the environment's fields. -/
theorem sameRest_of_decodePoll {s t : State} (h : decodePoll machineParams s = .next t) :
    t.crcTx = s.crcTx ∧ t.crcAcc = s.crcAcc ∧ SameRest s t := by
  rcases decodePoll_cases h with ⟨_, rfl⟩ | ⟨_, _, rfl⟩ | ⟨_, _, instants, u, ha, rfl⟩
  · exact ⟨rfl, rfl, rfl, rfl, rfl, rfl⟩
  · exact sameRest_commitView _ s
  · obtain ⟨_, htx, hacc, _, _, hmark, hsetup, hinputs, hoffers⟩ := runArrivals_frame ha
    obtain ⟨htx', hacc', hmark', hsetup', hinputs', hoffers'⟩ :=
      sameRest_commitView (viewAt machineParams instants s.inputs) u
    exact ⟨htx'.trans htx, hacc'.trans hacc, hmark'.trans hmark, hsetup'.trans hsetup, hinputs'.trans hinputs,
      hoffers'.trans hoffers⟩

/-- Settles O40, from the frame of each operation. -/
theorem operationsWriteOnlyWhatTheyMay : Obligations.OperationsWriteOnlyWhatTheyMay := by
  refine fun s t => ⟨fun b h => ?byte, fun hw h => ?poll, fun h => ?send, fun i hi h => ?crc⟩
  case byte => exact sameOutsideReceiver_of_receiveByte (exec_rxByte h)
  case poll =>
    rw [exec_decodePoll_eq hw] at h
    exact sameRest_of_decodePoll h
  case send =>
    obtain rfl := Host.Outcome.next.inj ((exec_sendTelemetry s).symm.trans h)
    exact ⟨⟨rfl, rfl, fun _ => rfl⟩, rfl, rfl, rfl, rfl, rfl, rfl, rfl, rfl, rfl⟩
  case crc =>
    obtain ⟨v, rfl⟩ : ∃ v, t = s.setCrcAcc v := by
      rcases hi with rfl | ⟨b, rfl⟩
      · exact ⟨_, (Host.Outcome.next.inj ((exec_crcInit s).symm.trans h)).symm⟩
      · exact ⟨_, (exec_crcUpdate h).2⟩
    exact ⟨⟨rfl, rfl, fun _ => rfl⟩, rfl, rfl, rfl, rfl, rfl, rfl, rfl, rfl, rfl, rfl⟩

/-- A poll inside which no byte arrives moves neither the receiver nor its buffer (41 R139). -/
theorem sameReceiver_of_decodePoll {s t : State} (hagree : ReadsAgree s) (h : decodePoll machineParams s = .next t) :
    SameReceiver s t := by
  cases hr : s.ready with
  | false =>
    rw [decodePoll_of_not_ready machineParams hr] at h
    obtain rfl := Host.Outcome.next.inj h
    exact ⟨rfl, rfl, fun _ => rfl⟩
  | true =>
    rw [decodePoll_of_readsAgree machineParams hr hagree] at h
    obtain rfl := Host.Outcome.next.inj h
    exact sameReceiver_commitView _ s

/-- Settles O15, instruction by instruction: a poll and a message row commit, the others have no access. -/
theorem onlyBytesMoveTheReceiver : Obligations.OnlyBytesMoveTheReceiver := by
  intro i s t h hbyte hquiet
  cases i
  case rxByte b => exact absurd rfl (hbyte b)
  case decodePoll =>
    rcases exec_decodePoll h with ⟨_, rfl⟩ | ⟨_, hpoll⟩
    · exact ⟨rfl, rfl, fun _ => rfl⟩
    · exact sameReceiver_of_decodePoll (readsAgree_of_no_arrivals (hquiet rfl)) hpoll
  case crcUpdate b =>
    obtain ⟨_, rfl⟩ := exec_crcUpdate h
    exact ⟨rfl, rfl, fun _ => rfl⟩
  case msg7 f =>
    cases hw : setupWellFormed s.setup with
    | false =>
      have hmark : exec (.msg7 f) s = .next (s.mark .badConfig) := if_neg (by rw [hw]; exact Bool.false_ne_true)
      obtain rfl := Host.Outcome.next.inj (hmark.symm.trans h)
      exact ⟨rfl, rfl, fun _ => rfl⟩
    | true =>
      obtain rfl := Host.Outcome.next.inj ((exec_msg7 f hw).symm.trans h)
      exact sameReceiver_commitView _ s
  case msgOther id f =>
    obtain rfl := Host.Outcome.next.inj h
    obtain ⟨hstate, hindex, hbuf, _⟩ := commit_frame machineParams (viewOfFrame id f) (own := dispatchMsgOther)
      (fun _ => ⟨rfl, rfl, rfl, rfl, rfl, rfl, rfl, rfl, rfl, rfl, rfl, rfl⟩) s
    exact ⟨hstate, hindex, fun a => congrArg (Memory.read · a) hbuf⟩
  case msg0 f | msg1 f | msg2 f | msg3 f | msg4 f | msg5 f | msg6 f | msg8 f =>
    obtain rfl := Host.Outcome.next.inj h
    exact sameReceiver_commitView (viewOfFrame _ f) s
  all_goals
    obtain rfl := Host.Outcome.next.inj h
    exact ⟨rfl, rfl, fun _ => rfl⟩

end Sys2Proof.Machine
end

section
/-! What one step can do to the state, said once (20 R70, 30 R93), and what follows from it case by case. -/

namespace Sys2Proof.Machine

open Sys2Proof.Claims

/-- The ways in which a step changes the state: a refusal marks it, silence leaves it, and an operation runs in the
state that has accepted its offer. -/
inductive StepEffect (s : State) : State → Prop
  /-- a configuration or a word is refused (30 R104) -/
  | marks (r : Refusal) : StepEffect s (s.mark r)
  /-- nothing is offered (log 7) -/
  | waits : StepEffect s s
  /-- RX_BYTE -/
  | receives {o : Offer} {rest : List Offer} {b : Byte} {t : State}
      (hb : receiveByte b (s.accept o rest) = .ok t) : StepEffect s t
  /-- DECODE_POLL with `ready` 0 -/
  | pollsNothing (o : Offer) (rest : List Offer) : StepEffect s (s.accept o rest)
  /-- DECODE_POLL with `ready` 1: the arrivals inside its interval, if any, and the commit -/
  | commits {o : Offer} {rest : List Offer} {arrivals : List Byte} {instants : List Memory} {u : State} (v : View)
      (hw : setupWellFormed s.setup = true) (ho : s.offers = o :: rest) (hword : o.word = 0x100)
      (hr : s.ready = true) (ha : runArrivals arrivals (s.accept o rest) = .ok (instants, u)) :
      StepEffect s (commitView machineParams v u)
  /-- SEND_TELEMETRY -/
  | sends (o : Offer) (rest : List Offer) (q : TxPayload) : StepEffect s (emitFrame machineParams q (s.accept o rest))
  /-- CRC_INIT and CRC_UPDATE -/
  | setsCrcAcc (o : Offer) (rest : List Offer) (v : Half) : StepEffect s ((s.accept o rest).setCrcAcc v)

/-- A poll that is offered does nothing or commits. -/
theorem stepEffect_of_decodePoll {s t : State} {o : Offer} {rest : List Offer} (hw : setupWellFormed s.setup = true)
    (ho : s.offers = o :: rest) (hword : o.word = 0x100)
    (h : exec .decodePoll (s.accept o rest) = .next t) : StepEffect s t := by
  rw [exec_decodePoll_eq (s := s.accept o rest) hw] at h
  rcases decodePoll_cases h with ⟨_, rfl⟩ | ⟨hr, _, rfl⟩ | ⟨hr, _, instants, u, ha, rfl⟩
  · exact .pollsNothing o rest
  · exact .commits _ hw ho hword hr (rfl : runArrivals [] (s.accept o rest) = _)
  · exact .commits _ hw ho hword hr ha

/-- A step that answers a next state changes the state in one of these ways. -/
theorem stepEffect_of_step {s t : State} (h : step s = .next t) : StepEffect s t := by
  obtain ⟨_, ⟨_, rfl⟩ | ⟨hw, ⟨_, rfl⟩ | ⟨o, rest, ho, ⟨e, _, rfl⟩ | ⟨i, hd, hexec⟩⟩⟩⟩ := step_cases h
  · exact .marks _
  · exact .waits
  · exact .marks _
  · rcases decodeCmd_cases hd with ⟨b, rfl⟩ | rfl | rfl | rfl | ⟨b, rfl⟩
    · exact .receives (exec_rxByte hexec)
    · exact stepEffect_of_decodePoll hw ho (word_of_decodePoll hd) hexec
    · obtain rfl := Host.Outcome.next.inj ((exec_sendTelemetry _).symm.trans hexec)
      exact .sends o rest _
    · obtain rfl := Host.Outcome.next.inj ((exec_crcInit _).symm.trans hexec)
      exact .setsCrcAcc o rest _
    · obtain ⟨_, rfl⟩ := exec_crcUpdate hexec
      exact .setsCrcAcc o rest _

/-! ### The output stream and the configuration registers -/

/-- A commit only appends to the stream. -/
theorem output_of_commitView (v : View) (s : State) :
    ∃ events, (commitView machineParams v s).output = s.output ++ events := by
  by_cases h : frameCrc machineParams v.covered = v.expected
  · exact ⟨_, commitView_output_of_match h s⟩
  · exact ⟨[], by rw [commitView_of_mismatch h, List.append_nil]; rfl⟩

/-- Settles O46: a receiver step and the CRC operations emit nothing, a commit and a send append. -/
theorem outputIsOnlyAppendedTo : Obligations.OutputIsOnlyAppendedTo := by
  intro s t h
  cases stepEffect_of_step h
  case receives hb =>
    obtain ⟨_, _, _, _, hout, _⟩ := receiveByte_frame hb
    exact ⟨[], by rw [hout, List.append_nil]; rfl⟩
  case commits ha =>
    obtain ⟨_, _, _, _, hout, _⟩ := runArrivals_frame ha
    exact hout ▸ output_of_commitView _ _
  case sends => exact ⟨_, rfl⟩
  all_goals exact ⟨[], (List.append_nil _).symm⟩

/-- Settles O47: only a commit writes a register, and only where it matches. -/
theorem onlyAMatchingPollWritesConfiguration : Obligations.OnlyAMatchingPollWritesConfiguration := by
  intro s t h hcfg
  cases stepEffect_of_step h
  case receives hb =>
    obtain ⟨_, _, _, hsame, _⟩ := receiveByte_frame hb
    exact absurd hsame hcfg
  case commits o rest _ _ u v hw ho hword hr ha =>
    obtain ⟨_, _, _, hsame, hout, _⟩ := runArrivals_frame ha
    by_cases hmatch : frameCrc machineParams v.covered = v.expected
    · obtain ⟨hready, _⟩ := commitView_match_effect hmatch (s := u) rfl
      have hevents := commitView_output_of_match hmatch u
      rw [hout] at hevents
      exact ⟨o, rest, ho, hword, hr, hready, _, hevents, by simp⟩
    · rw [commitView_of_mismatch hmatch] at hcfg
      exact absurd hsame hcfg
  all_goals exact absurd rfl hcfg

/-! ### A disabled channel -/

/-- While the channel is disabled the arrivals of an interval leave the state. -/
theorem runArrivals_of_disabled {bytes : List Byte} {s u : State} {instants : List Memory}
    (he : s.rxEnabled = false) (h : runArrivals bytes s = .ok (instants, u)) : u = s := by
  obtain ⟨_, hnone, _⟩ := runArrivals_of_none_accepted (bytes := bytes) (.inl he)
  exact (Prod.mk.inj (Except.ok.inj (h.symm.trans hnone))).2

/-- Settles O48: a disabled channel drops the byte of an RX_BYTE and those that arrive inside a poll. -/
theorem disabledChannelKeepsTheBuffer : Obligations.DisabledChannelKeepsTheBuffer := by
  intro s t he h
  cases stepEffect_of_step h
  case receives o rest b hb =>
    obtain rfl := Except.ok.inj ((receiveByte_disabled b (s := s.accept o rest) he).symm.trans hb)
    exact ⟨rfl, rfl, fun _ => rfl⟩
  case commits o rest _ _ u v _ _ _ _ ha =>
    obtain rfl := runArrivals_of_disabled (s := s.accept o rest) he ha
    exact sameReceiver_commitView v (s.accept o rest)
  all_goals exact ⟨rfl, rfl, fun _ => rfl⟩

/-- An RX_BYTE step leads to `ready` and `rx_enabled` both 1 only from a state that was so already. -/
theorem armed_of_receiveByte {b : Byte} {s t : State} (h : receiveByte b s = .ok t) (hr : t.ready = true)
    (he : t.rxEnabled = true) : s.ready = true ∧ s.rxEnabled = true := by
  rcases receiveByte_cases h with ⟨_, rfl⟩ | ⟨_, _, _, rfl⟩ | ⟨_, _, _, rfl⟩ | ⟨_, _, _, _, rfl⟩ | ⟨_, _, _, _, rfl⟩
  case inr.inr.inr.inl => cases he
  all_goals exact ⟨hr, he⟩

/-- Settles O49: only the re-arm of a commit enables the channel, and only one that mismatches keeps `ready`. -/
theorem flaggedAndArmedComesFromAMismatch : Obligations.FlaggedAndArmedComesFromAMismatch := by
  intro s t h hr he hnew
  cases stepEffect_of_step h
  case receives hb => exact absurd (armed_of_receiveByte hb hr he) hnew
  case commits o rest _ _ u v hw ho hword hrs ha =>
    have hes : s.rxEnabled = false := Bool.eq_false_iff.mpr fun henabled => hnew ⟨hrs, henabled⟩
    obtain rfl := runArrivals_of_disabled (s := s.accept o rest) hes ha
    have hmismatch := mismatch_of_ready hr
    rw [commitView_of_mismatch hmismatch]
    exact ⟨o, rest, ho, hword, hrs, hes, rfl, rfl⟩
  all_goals exact absurd ⟨hr, he⟩ hnew

end Sys2Proof.Machine
end

section
/-! The invariant of the receiver, the buffer and the handoff (10 R23, R24, R27, 20 R72), and the ramp-up pair
(10 R33, R37): every step keeps them. -/

namespace Sys2Proof.Machine

open Sys2Proof.Claims

/-! ### The buffer under one store -/

/-- A store at any offset takes back no written one. -/
theorem written_write {m : Memory} {n : Nat} (x : Nat) (b : Byte) (h : ∀ a, a < n → (Memory.read m a).isSome) :
    ∀ a, a < n → (Memory.read (Memory.write m x b) a).isSome :=
  fun a ha => Memory.read_write_isSome m x a b (h a ha)

/-- A store at the first unwritten offset extends what is written. -/
theorem written_write_succ {m : Memory} {n : Nat} (b : Byte) (h : ∀ a, a < n → (Memory.read m a).isSome) :
    ∀ a, a < n + 1 → (Memory.read (Memory.write m n b) a).isSome := by
  intro a ha
  obtain hlt | rfl := Nat.lt_succ_iff_lt_or_eq.mp ha
  · exact written_write n b h a hlt
  · rw [Memory.read_write_same]
    rfl

/-- A store that puts nothing but the start marker at offset 0 keeps the marker there. -/
theorem startMarker_write {m : Memory} {x : Nat} {b : Byte} (hb : x = 0 → b = rxStart)
    (h : ∀ c, Memory.read m 0 = some c → c = rxStart) :
    ∀ c, Memory.read (Memory.write m x b) 0 = some c → c = rxStart := by
  intro c hc
  by_cases hx : x = 0
  · subst hx
    rw [Memory.read_write_same] at hc
    exact (Option.some.inj hc) ▸ hb rfl
  · rw [Memory.read_write_other m b (Ne.symm hx)] at hc
    exact h c hc

/-! ### The invariant -/

/-- In COLLECTING the index is 1 to 8 (10 R23). -/
theorem State.Inv.index_of_collecting {s : State} (h : s.Inv) (hs : s.rxState = .collecting) :
    1 ≤ s.rxIndex.toNat ∧ s.rxIndex.toNat ≤ 8 := by
  have hreceiver := h.receiver
  simpa only [State.ReceiverInv, hs] using hreceiver

/-- An RX_BYTE step keeps the invariant. -/
theorem receiveByte_inv {b : Byte} {s t : State} (h : s.Inv) (hb : receiveByte b s = .ok t) : t.Inv := by
  obtain ⟨hwf, hstart, hcollected, hready⟩ := h.buffer
  rcases receiveByte_cases hb with ⟨_, rfl⟩ | ⟨he, _, _, rfl⟩ | ⟨he, _, hmark, rfl⟩ | ⟨_, hs, hi, hn, rfl⟩ |
    ⟨he, hs, hi, hn, rfl⟩
  · exact h
  · exact ⟨rfl, ⟨hwf, hstart, nofun, hready⟩, fun hd => nomatch he.symm.trans hd⟩
  · have hindex : 1 ≤ (1 : BitVec 4).toNat ∧ (1 : BitVec 4).toNat ≤ 8 := by decide
    exact ⟨hindex, ⟨Memory.write_wf b (by decide) hwf, startMarker_write (fun _ => hmark) hstart,
      fun _ => written_write_succ b (fun _ ha => nomatch ha), fun hr => written_write 0 b (hready hr)⟩,
      fun hd => nomatch he.symm.trans hd⟩
  · obtain ⟨hmin, _⟩ := h.index_of_collecting hs
    have hlast : s.rxIndex.toNat + 1 = rxFrameLen := (by bv_omega : s.rxIndex.toNat + 1 = 9)
    exact ⟨rfl, ⟨Memory.write_wf b hi hwf, startMarker_write (by omega) hstart, nofun,
      fun _ => hlast ▸ written_write_succ b (hcollected hs)⟩, fun _ => ⟨rfl, rfl⟩⟩
  · obtain ⟨hmin, hmax⟩ := h.index_of_collecting hs
    have hindex : (s.rxIndex + 1).toNat = s.rxIndex.toNat + 1 := by bv_omega
    have hnext : 1 ≤ (s.rxIndex + 1).toNat ∧ (s.rxIndex + 1).toNat ≤ 8 := by bv_omega
    refine ⟨hnext, ⟨Memory.write_wf b hi hwf, startMarker_write (by omega) hstart, fun _ => ?_,
      fun hr => written_write _ b (hready hr)⟩, fun hd => nomatch he.symm.trans hd⟩
    rw [State.setReceiver_rxIndex, hindex]
    exact written_write_succ b (hcollected hs)

/-- The arrivals of a poll keep the invariant. -/
theorem runArrivals_inv {bytes : List Byte} {s u : State} {instants : List Memory} (h : s.Inv)
    (ha : runArrivals bytes s = .ok (instants, u)) : u.Inv :=
  runArrivals_keeps (P := State.Inv) (fun _ _ _ => receiveByte_inv) ha h

/-- A state with an armed receiver, the same receiver and buffer, and no frame raised meets the invariant again. -/
theorem State.Inv.of_armed {s t : State} (h : s.Inv) (hstate : t.rxState = s.rxState) (hindex : t.rxIndex = s.rxIndex)
    (hbuf : t.rxBuf = s.rxBuf) (hready : t.ready = true → s.ready = true) (henabled : t.rxEnabled = true) : t.Inv := by
  obtain ⟨hreceiver, ⟨hwf, hstart, hcollected, hfull⟩, _⟩ := h
  refine ⟨?_, ⟨hbuf ▸ hwf, hbuf ▸ hstart, fun hs => ?_, fun hr => ?_⟩, fun hd => nomatch henabled.symm.trans hd⟩
  · simpa only [State.ReceiverInv, hstate, hindex] using hreceiver
  · simpa only [State.WrittenBelow, hindex, hbuf] using hcollected (hstate ▸ hs)
  · simpa only [State.WrittenBelow, hbuf] using hfull (hready hr)

/-- A commit keeps the invariant: it arms the receiver and at most clears `ready`. -/
theorem commitView_inv {s : State} (h : s.Inv) (v : View) : (commitView machineParams v s).Inv := by
  obtain ⟨hstate, hindex, hbuf, henabled, _⟩ :=
    commit_frame machineParams v (dispatch_frame machineParams v.id v.b5 v.b6) s
  refine h.of_armed hstate hindex hbuf (fun hr => ?_) henabled
  have hmismatch := mismatch_of_ready hr
  rw [commitView_of_mismatch hmismatch] at hr
  exact hr

/-- Settles O43: the receiver's own step is the one that moves what the invariant is about. -/
theorem stepKeepsTheInvariant : Obligations.StepKeepsTheInvariant := by
  intro s t h hstep
  have haccept : ∀ o rest, (s.accept o rest).Inv := fun _ _ => ⟨h.receiver, h.buffer, h.handoff⟩
  cases stepEffect_of_step hstep
  case receives o rest _ hb => exact receiveByte_inv (haccept o rest) hb
  case commits o rest _ _ _ v _ _ _ _ ha => exact commitView_inv (runArrivals_inv (haccept o rest) ha) v
  all_goals exact ⟨h.receiver, h.buffer, h.handoff⟩

/-! ### No stop -/

/-- Under the invariant RX_BYTE answers a next state: its index is an offset of the buffer (10 R23). -/
theorem State.Inv.index_lt {s : State} (h : s.Inv) (hs : s.rxState = .collecting) : s.rxIndex.toNat < rxFrameLen :=
  Nat.lt_succ_of_le (h.index_of_collecting hs).2

/-- Under the invariant a poll answers a next state: every arrival inside its interval finds an offset (42 R176). -/
theorem decodePoll_answers {s : State} (h : s.Inv) : ∃ t, decodePoll machineParams s = .next t := by
  cases hr : s.ready with
  | false => exact ⟨_, decodePoll_of_not_ready machineParams hr⟩
  | true =>
    cases hv : s.setup.decodeView with
    | atomic => exact ⟨_, decodePoll_of_atomic machineParams hr hv⟩
    | preemptible =>
      obtain ⟨instants, u, ha⟩ := runArrivals_ok (P := State.Inv) (fun _ _ _ => receiveByte_inv)
        (fun _ => State.Inv.index_lt) s.inputs.arrivals h
      exact ⟨_, decodePoll_of_preemptible machineParams hr hv ha⟩

/-- Settles O22, by the invariant along the arrivals. -/
theorem pollNeverStops : Obligations.PollNeverStops := by
  intro s h hw
  rw [exec_decodePoll_eq hw]
  exact decodePoll_answers h

/-- The core's own operations are RX_BYTE, DECODE_POLL and SEND_TELEMETRY (60 R237). -/
theorem decodeCmd_of_coreWord {w : CmdWord} (h : coreWord w = true) :
    (∃ b, decodeCmd w = .ok (.rxByte b)) ∨ decodeCmd w = .ok .decodePoll ∨ decodeCmd w = .ok .sendTelemetry := by
  unfold coreWord at h
  cases hd : decodeCmd w with
  | error e => rw [hd] at h; cases h
  | ok i =>
    rw [hd] at h
    rcases decodeCmd_cases hd with ⟨b, rfl⟩ | rfl | rfl | rfl | ⟨b, rfl⟩
    · exact .inl ⟨b, rfl⟩
    · exact .inr (.inl rfl)
    · exact .inr (.inr rfl)
    · exact absurd h (by decide)
    · exact absurd (of_decide_eq_true h) (by simp [Instr.mnemonic])

/-- Under the invariant and a well-formed configuration each of the core's own operations answers a next state, and
leaves the mark, the parameters and the environment's fields. -/
theorem exec_coreWord_answers {w : CmdWord} (h : coreWord w = true) {s : State} (hs : s.Inv)
    (hw : setupWellFormed s.setup = true) : ∃ i t, decodeCmd w = .ok i ∧ exec i s = .next t ∧ SameRest s t := by
  rcases decodeCmd_of_coreWord h with ⟨b, hd⟩ | hd | hd
  · obtain ⟨t, hb⟩ := receiveByte_ok b hs.index_lt
    obtain ⟨_, _, _, _, _, hrest⟩ := sameOutsideReceiver_of_receiveByte hb
    exact ⟨_, t, hd, exec_rxByte_of_ok hb, hrest⟩
  · obtain ⟨t, ht⟩ := decodePoll_answers hs
    obtain ⟨_, _, hrest⟩ := sameRest_of_decodePoll ht
    exact ⟨_, t, hd, (exec_decodePoll_eq hw).trans ht, hrest⟩
  · exact ⟨_, _, hd, exec_sendTelemetry s, rfl, rfl, rfl, rfl⟩

/-- Settles O45: the offered operation answers, the step keeps the invariant, and what drives the state is left. -/
theorem coreOperationsNeverStop : Obligations.CoreOperationsNeverStop := by
  intro s h hdriven
  obtain ⟨hw, hm, hcore⟩ := hdriven
  obtain ⟨_, _, hsilent⟩ := markConfigurationAndSilenceComeFirst s
  cases ho : s.offers with
  | nil => exact ⟨s, hsilent hm hw ho, h, hw, hm, hcore⟩
  | cons o rest =>
    rw [ho] at hcore
    obtain ⟨i, t, hd, hexec, hmark, hsetup, _, hoffers⟩ := exec_coreWord_answers (hcore o List.mem_cons_self)
      (s := s.accept o rest) ⟨h.receiver, h.buffer, h.handoff⟩ hw
    have hstep : step s = .next t := by rw [step, nextOp_of_decodeCmd hm hw ho hd]; exact hexec
    refine ⟨t, hstep, stepKeepsTheInvariant s t h hstep, by rw [hsetup]; exact hw, hmark.trans hm, fun o' ho' => ?_⟩
    rw [hoffers] at ho'
    exact hcore o' (List.mem_cons_of_mem o ho')

/-! ### The ramp-up pair -/

/-- A message's own operation keeps the ramp-up pair: only MSG7 writes it, and writes a rate with its own step. -/
theorem dispatch_rampInv (p : Params) (id b5 b6 : Byte) {s : State} (hw : setupWellFormed s.setup = true)
    (h : s.RampInv) : (dispatch p id b5 b6 s).RampInv := by
  refine dispatch_elim (motive := fun _ t => t.RampInv) p id b5 b6 s ?_ ?_ ?_ ?_ ?_ ?_ ?_ ?msg7 ?_ ?reserved
  case msg7 => exact ⟨rampRate_inRange hw b5, rfl⟩
  case reserved => exact fun _ _ => h
  all_goals exact h

/-- A commit keeps the ramp-up pair. -/
theorem commitView_rampInv {s : State} (hw : setupWellFormed s.setup = true) (h : s.RampInv) (v : View) :
    (commitView machineParams v s).RampInv := by
  by_cases hmatch : frameCrc machineParams v.covered = v.expected
  · rw [commitView_of_match hmatch]
    exact dispatch_rampInv machineParams v.id v.b5 v.b6 (s := dispatchState v s) hw h
  · rw [commitView_of_mismatch hmatch]
    exact h

/-- Settles O44: a commit is the only step that writes the registers. -/
theorem stepKeepsTheRampPair : Obligations.StepKeepsTheRampPair := by
  intro s t h hstep
  cases stepEffect_of_step hstep
  case receives hb =>
    obtain ⟨_, _, _, hcfg, _⟩ := receiveByte_frame hb
    rw [State.RampInv, hcfg]
    exact h
  case commits u v hw _ _ _ ha =>
    obtain ⟨_, _, _, hcfg, _, _, hsetup, _⟩ := runArrivals_frame ha
    refine commitView_rampInv (by rw [hsetup]; exact hw) ?_ v
    rw [State.RampInv, hcfg]
    exact h
  all_goals exact h

end Sys2Proof.Machine
end

section
/-! Placing an encoded instruction for the next step (log 7, 14, 15). -/

namespace Sys2Proof.Machine

open Sys2Proof.Claims

/-- A list placed in the buffer is read back in its order. -/
theorem read_bufferFrom_add (a k : Nat) (bytes : List Byte) :
    Memory.read (bufferFrom a bytes) (a + k) = bytes[k]? := by
  induction bytes generalizing a k with
  | nil => rfl
  | cons b rest ih =>
    cases k with
    | zero => simp [bufferFrom, Memory.read]
    | succ k =>
      have hne : ¬ a = a + (k + 1) := by omega
      rw [bufferFrom, Memory.read, if_neg hne, List.getElem?_cons_succ, show a + (k + 1) = a + 1 + k by omega, ih]

/-- A placed frame is held. -/
theorem holds_holdFrame (s : State) {bytes : List Byte} (h : bytes.length = rxFrameLen) :
    Holds (s.holdFrame bytes) bytes := by
  refine ⟨h, fun a _ => ?_⟩
  have hread := read_bufferFrom_add 0 a bytes
  rwa [Nat.zero_add] at hread

/-- A transmit frame that the layout reads is TELEMETRY (30 R82, R103). -/
theorem telemetry_of_decodeTxf {bytes : List Byte} {i : Instr} (h : decodeTxf bytes = some i) :
    ∃ p lo hi, i = .telemetry p lo hi := by
  unfold decodeTxf at h
  split at h
  · split at h
    next => exact ⟨_, _, _, (Option.some.inj h).symm⟩
    next => cases h
  · cases h

/-- A poll that is placed with a receive frame does what the frame's instruction does. -/
theorem exec_decodePoll_of_held {s : State} {id : Byte} {f : RxFields} (hw : setupWellFormed s.setup = true)
    (hr : s.ready = true) (hholds : Holds s (rxfBytes id f)) (hquiet : s.inputs.arrivals = []) :
    exec .decodePoll s = exec (message id f) s :=
  pollRunsTheBufferedMessage s _ _ hr hholds (decode_rxfBytes id f) hw (.inr (.inr hquiet))

/-- A send of the sample for a payload does what TELEMETRY of that payload does. -/
theorem exec_sendTelemetry_of_sample {s : State} {p : TxPayload} (lo hi : Byte)
    (h : s.inputs.telemetry = sampleFor p) : exec .sendTelemetry s = exec (.telemetry p lo hi) s := by
  rw [exec_sendTelemetry, h, buildPayload_sampleFor]
  rfl

/-- The word that is offered with a receive frame is a poll (30 R96). -/
theorem decodeCmd_pollWord : decodeCmd (cmdWord 1 0) = .ok .decodePoll := by decide

/-- The word that is offered with a transmit frame is a send (30 R96). -/
theorem decodeCmd_sendWord : decodeCmd (cmdWord 2 0) = .ok .sendTelemetry := by decide

/-- Settles O53: a command word is itself offered; with a receive frame a poll of it is, with a transmit frame a send of
a sample for it. -/
theorem placedInstructionRunsNext : Obligations.PlacedInstructionRunsNext := by
  intro s c i hm hw h
  cases c with
  | cmd w => exact ⟨i, _, nextOp_of_decodeCmd (s := s.place (.cmd w)) hm hw rfl (decodeCmd_of_decode h), rfl⟩
  | rxf bytes =>
    obtain ⟨id, f, rfl, rfl⟩ := rxfBytes_of_decodeRxf (decodeRxf_of_decode h)
    exact ⟨.decodePoll, _, nextOp_of_decodeCmd (s := s.place (.rxf (rxfBytes id f))) hm hw rfl decodeCmd_pollWord,
      exec_decodePoll_of_held hw rfl (holds_holdFrame s rfl) rfl⟩
  | txf bytes =>
    have hd := decodeTxf_of_decode h
    obtain ⟨p, lo, hi, rfl⟩ := telemetry_of_decodeTxf hd
    simp only [State.place, hd]
    exact ⟨.sendTelemetry, _, nextOp_of_decodeCmd hm hw rfl decodeCmd_sendWord,
      exec_sendTelemetry_of_sample lo hi rfl⟩

end Sys2Proof.Machine
end
